-- ==== Sys2Proof/Word.lean ====
section
/-! DEFINITION. The words of the block: bytes, byte sequences and the two wider fields (00_scope.md R7, R10, R11). -/

namespace Sys2Proof

/-- A byte, bit 0 the least significant (R7, R10). -/
abbrev Byte := BitVec 8

/-- `Bytes`, a finite byte sequence; index 0 is the first byte on the wire (R11). -/
abbrev Bytes := List Byte

/-- A 16-bit field: the checksum, a response length, a buffer size, a timeout (R7). -/
abbrev U16 := BitVec 16

/-- A 32-bit field: an inter-transaction delay in nanoseconds (R7). -/
abbrev U32 := BitVec 32

end Sys2Proof
end

