-- ==== Sys2Proof/Config.lean ====
section
/-! DEFINITION. The defaults of the named parameters P2 to P6 (00_scope.md R9). The parameters themselves are fields of
State, given per agent when the host creates it (10_state.md R36, R39); the spec leaves no other value to an
implementation, so there is no free value here. -/

namespace Sys2Proof.Config

/-- P5 `ITD_TYPE_CODE`, default 0x04. PRESUMED, unsafe: the spec itself marks this default as general knowledge
(R9, R80; 91_not_in_source.md N6; log 10). -/
def itdTypeCode : Byte := 0x04

/-- P2 `FRAME_BUF_CAP`, default `UNBOUNDED`, written `none` (R9). -/
def frameBufCap : Option Nat := none

/-- P3 `I2C_RSP_LEN_ADJUST`, default 0 (R9). -/
def i2cRspLenAdjust : Nat := 0

/-- P6 `SPI_RSP_LEN_ADJUST`, default 0 (R9). -/
def spiRspLenAdjust : Nat := 0

end Sys2Proof.Config
end

