-- ==== Sys2Proof/Syntax.lean ====
section
/-! DEFINITION. The values, the requests and the wire codes of the block as data: one constructor of `Instr` per row of
spec/opcode_table.json. No meaning stands here. -/

namespace Sys2Proof

/-! ## Values (10_state.md section 4) -/

/-- Parameter P1 `SER_DIR`, and SER_FRAME_DECODE's operand `dir` (R9, R204). -/
inductive Dir where
  | cmd | rsp
  deriving DecidableEq, Repr

/-- Direction of an I2C transaction (R40). -/
inductive Rw where
  | write | read
  deriving DecidableEq, Repr

/-- The agent classes (R20); FRAMER_RESET names one (R71, R314). -/
inductive UnitClass where
  | ser | i2c | spi | sess
  deriving DecidableEq, Repr

/-- Command codes 1..5 (R32, R75). -/
inductive CommandCode where
  | getClientInfo | startTransfer | writeChunk | getImageState | endTransfer
  deriving DecidableEq, Repr

/-- Status codes 1..5 (R33, R76). -/
inductive StatusCode where
  | success | notSupported | notAuthorized | packetTransportFailure | abortFileTransfer
  deriving DecidableEq, Repr

/-- CommandPacket value (R32). -/
structure CommandPacket where
  seq  : BitVec 5
  sync : Bool
  cmd  : CommandCode
  data : Bytes
  deriving DecidableEq, Repr

/-- StatusPacket value (R33). -/
structure StatusPacket where
  seq    : BitVec 5
  resend : Bool
  status : StatusCode
  data   : Bytes
  deriving DecidableEq, Repr

/-- PollStatus value (R35). `cmd_ready`, `rsp_ready` and `bit7` are bits of `raw`, so they are views of it
(Machine/Flags.lean), stored once. -/
structure PollStatus where
  raw : Byte
  deriving DecidableEq, Repr

/-- The version field of ClientInfo (R34, R154). -/
structure Version where
  major : Byte
  minor : Byte
  patch : Byte
  pre   : Option Byte
  deriving DecidableEq, Repr

/-- ClientInfo value (R34). Timeouts are raw counts of 0.1 s, the delay a count of ns (R16). `overrides` is in stored
order; that no code occurs twice in it is `ClientInfo.wf` (WellFormed.lean). -/
structure ClientInfo where
  version        : Version
  bufferCount    : Byte
  bufferSize     : U16
  defaultTimeout : U16
  overrides      : List (CommandCode × U16)
  itd            : Option U32
  deriving DecidableEq, Repr

/-- Sub-codes of `ClientInfoError` (60_exceptions.md R331). -/
inductive CiSub where
  | unknownType | overrun | badLength | unknownCommand | missingVersion | missingBufferInfo | missingDefaultTimeout
  deriving DecidableEq, Repr

/-- Sub-codes of `FramingError` (R331). -/
inductive FeSub where
  | badStart | badEnd | badEscape | tooShort | unexpectedPrefix | overflow
  deriving DecidableEq, Repr

/-- Sub-codes of `DelayOutOfRange` (R331). -/
inductive DlySub where
  | tooLarge | badSize
  deriving DecidableEq, Repr

/-- Error kinds with the sub-code of those that have one (R330, R331). -/
inductive ErrorKind where
  | checksumInvalid
  | sequenceNumberOutOfRange
  | commandNotSupported
  | statusInvalid
  | clientInfoError (sub : CiSub)
  | framingError (sub : FeSub)
  | packetTooShort
  | delayOutOfRange (sub : DlySub)
  deriving DecidableEq, Repr

/-- The I2C framer's phases (R26). -/
inductive I2cPhase where
  | command | responseStatus | responseLength | response
  deriving DecidableEq, Repr

/-- The phase an error records (R31): none, an I2C phase, or an SPI transaction class. -/
inductive ErrPhase where
  | none
  | i2c (p : I2cPhase)
  | spiWrite
  | spiRead
  deriving DecidableEq, Repr

/-- The value of a pure operation: "checksum, bytes, record, flag" and the 32-bit delay (R30, R70). -/
inductive Value where
  | word (c : U16)
  | flag (b : Bool)
  | bytes (b : Bytes)
  | info (ci : ClientInfo)
  | delay (n : U32)
  deriving DecidableEq, Repr

/-- The Result type (R30). -/
inductive Result where
  | none
  | cmd (p : CommandPacket)
  | sts (p : StatusPacket)
  | poll (p : PollStatus)
  | len (l : U16)
  | notReady
  | value (v : Value)
  | err (e : ErrorKind) (ph : ErrPhase)
  deriving DecidableEq, Repr

/-! ## Requests and wire codes (30_encoding.md) -/

/-- The 23 operations of R70. -/
inductive Op where
  | csum | csumVerify | frameSeal | frameOpen
  | cmdDecode | cmdEncode | stsDecode | stsEncode
  | ciDecode | ciEncode | ciSetDefaultTimeouts
  | itdFromNs | itdDecode | itdEncode
  | serEscape | serUnescape | serFrameEncode | serFrameDecode | serByte
  | i2cTxn | spiTxn | sessionResult | framerReset
  deriving DecidableEq, Repr

/-- The three status-byte bits that have a row in the opcode table (R87). -/
inductive StatusBit where
  | cmdReady | rspReady | bit7
  deriving DecidableEq, Repr

/-- Where the bytes of one delivery come from, hence which format of the opcode table reads them. The table's formats
overlap (the word 01 is a request, a parameter type and a status bit), and the spec tells them apart by the unit the
bytes reach (R90, R121). DESIGN CHOICE, safe (log 4). -/
inductive Source where
  /-- The request port (R71). -/
  | request
  /-- A Command packet (formats `command_header`). -/
  | commandPacket
  /-- A Status packet (format `status_header`). -/
  | statusPacket
  /-- A client-info parameter stream (format `tlv_record`). -/
  | parameterStream
  /-- One byte on the line of `SER[k]`, read for the start and end codes (format `serial_code`). -/
  | serialLine (k : Byte)
  /-- A serial frame body, read for the escape code (format `serial_code`, row SER.ESC). -/
  | escapedBody
  /-- A serial frame body, read for a legal escape pair (format `serial_escape_pair`). -/
  | escapePair
  /-- An SPI transaction of `SPI[k]`, read from its outbound first byte (format `spi_prefix`). -/
  | spiOutbound (k : Byte)
  /-- The reply to an SPI query of `SPI[k]`, read from its tag (format `spi_tag`). -/
  | spiReply (k : Byte)
  /-- A read of `I2C[k]`, looked at for one of the named bits of its first byte (format `i2c_status_bit`). -/
  | i2cStatus (k : Byte) (bit : StatusBit)
  deriving DecidableEq, Repr

/-- Why bytes are no instruction. Raised by Decode.lean only, and by no input that the spec describes: they are no request of
R70 in R71's format (R93; 93_implementation_defined.md I6), or not one event of R40 in the model's layout (log 2, 13).
Safe. -/
inductive DecodeError where
  /-- The operation-select code is not in R70's table (R93). -/
  | reservedOperation (op : Byte)
  /-- A non-zero instance index on an operation that has no instance (R71). -/
  | nonzeroIndex (k : Byte)
  /-- The bytes end before the operands do. -/
  | truncated
  /-- Bytes follow the last operand. -/
  | trailingBytes
  /-- A one-bit operand byte that is neither 0 nor 1. -/
  | badFlag (b : Byte)
  /-- An operand byte that selects none of the alternatives of its type. -/
  | badSelector (b : Byte)
  /-- A 7-bit I2C address or a 5-bit sequence number that does not fit. -/
  | badRange (b : Byte)
  deriving DecidableEq, Repr

/-- One instruction: a request of R70, or an input that begins with one wire code of the opcode table. -/
inductive Instr where
  -- 40_checksum.md
  | csum (data : Bytes)
  | csumVerify (data : Bytes) (c : U16)
  | frameSeal (p : Bytes)
  | frameOpen (f : Bytes)
  -- 41_packet_codec.md
  | cmdDecode (b : Bytes)
  | cmdEncode (seq : Byte) (sync : Bool) (cmd : Byte) (data : Bytes)
  | stsDecode (b : Bytes)
  | stsEncode (seq : Byte) (resend : Bool) (status : Byte) (data : Bytes)
  -- 42_client_info.md
  | ciDecode (stream : Bytes)
  | ciEncode (ci : ClientInfo)
  | ciSetDefaultTimeouts (ci : ClientInfo)
  | itdFromNs (n : Nat)
  | itdDecode (b : Bytes)
  | itdEncode (n : U32)
  -- 43_serial_framer.md
  | serEscape (d : Bytes)
  | serUnescape (e : Bytes)
  | serFrameEncode (p : Bytes)
  | serFrameDecode (frame : Bytes) (dir : Dir)
  | serByte (k : Byte) (b : Byte)
  -- 44_i2c_framer.md, 45_spi_framer.md, 46_session.md
  | i2cTxn (k : Byte) (rw : Rw) (addr : BitVec 7) (data : Bytes)
  | spiTxn (k : Byte) (mosi : Bytes) (miso : Bytes)
  | sessionResult (k : Byte) (r : Result)
  | framerReset (unit : Byte) (k : Byte)
  -- format command_header (R72, R75): bits 6:5 of byte 0 are `rsv`
  | cmdGetClientInfo (sync : Bool) (rsv : BitVec 2) (seq : BitVec 5) (data : Bytes)
  | cmdStartTransfer (sync : Bool) (rsv : BitVec 2) (seq : BitVec 5) (data : Bytes)
  | cmdWriteChunk (sync : Bool) (rsv : BitVec 2) (seq : BitVec 5) (data : Bytes)
  | cmdGetImageState (sync : Bool) (rsv : BitVec 2) (seq : BitVec 5) (data : Bytes)
  | cmdEndTransfer (sync : Bool) (rsv : BitVec 2) (seq : BitVec 5) (data : Bytes)
  -- format status_header (R73, R76): bits 7 and 5 of byte 0 are `r7` and `r5`
  | stsSuccess (r7 resend r5 : Bool) (seq : BitVec 5) (data : Bytes)
  | stsNotSupported (r7 resend r5 : Bool) (seq : BitVec 5) (data : Bytes)
  | stsNotAuthorized (r7 resend r5 : Bool) (seq : BitVec 5) (data : Bytes)
  | stsPacketTransportFailure (r7 resend r5 : Bool) (seq : BitVec 5) (data : Bytes)
  | stsAbortFileTransfer (r7 resend r5 : Bool) (seq : BitVec 5) (data : Bytes)
  -- format tlv_record (R79 to R81): the length byte, then the value and whatever records follow it
  | tlvProtocolVersion (len : Byte) (body : Bytes)
  | tlvBufferInfo (len : Byte) (body : Bytes)
  | tlvCommandTimeouts (len : Byte) (body : Bytes)
  | tlvInterTransactionDelay (len : Byte) (body : Bytes)
  -- format serial_code (R83)
  | serStart (k : Byte)
  | serEnd (k : Byte)
  | serEsc (rest : Bytes)
  -- format serial_escape_pair (R84): the rest of the frame body
  | serEsc56 (rest : Bytes)
  | serEsc9E (rest : Bytes)
  | serEscCC (rest : Bytes)
  -- format spi_prefix (R88): the rest of mosi, and miso
  | spiWrite (k : Byte) (rest : Bytes) (miso : Bytes)
  | spiRead (k : Byte) (rest : Bytes) (miso : Bytes)
  -- format spi_tag (R88): the rest of mosi after 0x55, miso[0], and miso[4..]
  | spiTagLen (k : Byte) (rest : Bytes) (dummy : Byte) (body : Bytes)
  | spiTagRsp (k : Byte) (rest : Bytes) (dummy : Byte) (body : Bytes)
  -- format i2c_status_bit (R87): the other bits of the status byte, and the surplus bytes of the read
  | i2cCmdReady (k : Byte) (hi : BitVec 7) (surplus : Bytes)
  | i2cRspReady (k : Byte) (hi : BitVec 6) (lo : BitVec 1) (surplus : Bytes)
  | i2cBit7 (k : Byte) (lo : BitVec 7) (surplus : Bytes)
  deriving DecidableEq, Repr

end Sys2Proof
end

