-- ==== Sys2Proof/Machine/Operands.lean ====
section
/-! DEFINITION. Operand assembly: byte order (00_scope.md R12, 20_memory.md R53), the numeric codes of named values
(30_encoding.md R70, R75, R76; 60_exceptions.md R330, R331) and the fixed wire codes (R83, R84, R88). -/

namespace Sys2Proof

/-! ## Byte order -/

/-- `le16(lo, hi) = lo + 256*hi` (R12). -/
def le16 (lo hi : Byte) : U16 := hi ++ lo

/-- `le16_bytes(v) = [v[7:0], v[15:8]]` (R12). -/
def le16Bytes (v : U16) : Bytes := [v.extractLsb' 0 8, v.extractLsb' 8 8]

/-- `le32(b0, b1, b2, b3)` (R12). -/
def le32 (b0 b1 b2 b3 : Byte) : U32 := b3 ++ b2 ++ b1 ++ b0

/-- `le32_bytes(v)` (R12). -/
def le32Bytes (v : U32) : Bytes :=
  [v.extractLsb' 0 8, v.extractLsb' 8 8, v.extractLsb' 16 8, v.extractLsb' 24 8]

/-- `b[i]` for an index below `len(b)` (R11); every use is guarded by a length check of the rule it follows. -/
def byteAt (b : Bytes) (i : Nat) : Byte := b.getD i 0

/-- The 16-bit little-endian field at index `i` (R53). -/
def le16At (b : Bytes) (i : Nat) : U16 := le16 (byteAt b i) (byteAt b (i + 1))

/-- `b[i..j)` (R11). -/
def slice (b : Bytes) (i j : Nat) : Bytes := (b.drop i).take (j - i)

/-! ## Codes of named values -/

/-- Command code on the wire (R75). -/
def CommandCode.code (c : CommandCode) : Byte :=
  match c with
  | .getClientInfo => 0x01
  | .startTransfer => 0x02
  | .writeChunk => 0x03
  | .getImageState => 0x04
  | .endTransfer => 0x05

/-- The five commands in command-code order (R75, R162). -/
def CommandCode.all : List CommandCode :=
  [.getClientInfo, .startTransfer, .writeChunk, .getImageState, .endTransfer]

/-- The command of a byte; none for 00 and 06 to FF (R77). -/
def CommandCode.ofByte (b : Byte) : Option CommandCode :=
  CommandCode.all.find? fun c => c.code == b

/-- Status code on the wire (R76). -/
def StatusCode.code (c : StatusCode) : Byte :=
  match c with
  | .success => 0x01
  | .notSupported => 0x02
  | .notAuthorized => 0x03
  | .packetTransportFailure => 0x04
  | .abortFileTransfer => 0x05

/-- The five statuses (R76). -/
def StatusCode.all : List StatusCode :=
  [.success, .notSupported, .notAuthorized, .packetTransportFailure, .abortFileTransfer]

/-- The status of a byte; none for 00 and 06 to FF (R77). -/
def StatusCode.ofByte (b : Byte) : Option StatusCode :=
  StatusCode.all.find? fun c => c.code == b

/-- Sub-code numbers of `ClientInfoError` (R331). -/
def CiSub.code (x : CiSub) : Byte :=
  match x with
  | .unknownType => 0x01
  | .overrun => 0x02
  | .badLength => 0x03
  | .unknownCommand => 0x04
  | .missingVersion => 0x05
  | .missingBufferInfo => 0x06
  | .missingDefaultTimeout => 0x07

/-- Sub-code numbers of `FramingError` (R331). -/
def FeSub.code (x : FeSub) : Byte :=
  match x with
  | .badStart => 0x01
  | .badEnd => 0x02
  | .badEscape => 0x03
  | .tooShort => 0x04
  | .unexpectedPrefix => 0x05
  | .overflow => 0x06

/-- Sub-code numbers of `DelayOutOfRange` (R331). -/
def DlySub.code (x : DlySub) : Byte :=
  match x with
  | .tooLarge => 0x01
  | .badSize => 0x02

/-- Error-kind numbers (R330). -/
def ErrorKind.code (e : ErrorKind) : Byte :=
  match e with
  | .checksumInvalid => 0x01
  | .sequenceNumberOutOfRange => 0x02
  | .commandNotSupported => 0x03
  | .statusInvalid => 0x04
  | .clientInfoError _ => 0x05
  | .framingError _ => 0x06
  | .packetTooShort => 0x07
  | .delayOutOfRange _ => 0x08

/-- The sub-code an error result carries, 0 when the kind has none (R31, R331). -/
def ErrorKind.sub (e : ErrorKind) : Byte :=
  match e with
  | .clientInfoError x => x.code
  | .framingError x => x.code
  | .delayOutOfRange x => x.code
  | .checksumInvalid => 0x00
  | .sequenceNumberOutOfRange => 0x00
  | .commandNotSupported => 0x00
  | .statusInvalid => 0x00
  | .packetTooShort => 0x00

/-- Every error kind with every sub-code it has (R330, R331). -/
def ErrorKind.all : List ErrorKind :=
  [.checksumInvalid, .sequenceNumberOutOfRange, .commandNotSupported, .statusInvalid,
   .clientInfoError .unknownType, .clientInfoError .overrun, .clientInfoError .badLength,
   .clientInfoError .unknownCommand, .clientInfoError .missingVersion, .clientInfoError .missingBufferInfo,
   .clientInfoError .missingDefaultTimeout,
   .framingError .badStart, .framingError .badEnd, .framingError .badEscape, .framingError .tooShort,
   .framingError .unexpectedPrefix, .framingError .overflow,
   .packetTooShort, .delayOutOfRange .tooLarge, .delayOutOfRange .badSize]

/-- The error of a kind number and a sub-code number, if R330 and R331 list the pair. -/
def ErrorKind.ofCodes (kind sub : Byte) : Option ErrorKind :=
  ErrorKind.all.find? fun e => e.code == kind && e.sub == sub

/-- The byte for a recorded phase in a Result operand. DESIGN CHOICE (log 2): the spec numbers no phases. -/
def ErrPhase.code (p : ErrPhase) : Byte :=
  match p with
  | .none => 0x00
  | .i2c .command => 0x01
  | .i2c .responseStatus => 0x02
  | .i2c .responseLength => 0x03
  | .i2c .response => 0x04
  | .spiWrite => 0x05
  | .spiRead => 0x06

/-- Every recorded phase. -/
def ErrPhase.all : List ErrPhase :=
  [.none, .i2c .command, .i2c .responseStatus, .i2c .responseLength, .i2c .response, .spiWrite, .spiRead]

/-- The recorded phase of a byte of a Result operand. -/
def ErrPhase.ofByte (b : Byte) : Option ErrPhase :=
  ErrPhase.all.find? fun p => p.code == b

/-- Unit class bytes of FRAMER_RESET: the code of the class's event operation (R71). -/
def UnitClass.code (u : UnitClass) : Byte :=
  match u with
  | .ser => 0x34
  | .i2c => 0x40
  | .spi => 0x50
  | .sess => 0x60

/-- The four unit classes (R71). -/
def UnitClass.all : List UnitClass := [.ser, .i2c, .spi, .sess]

/-- The unit class of an operand byte (R71). -/
def UnitClass.ofByte (b : Byte) : Option UnitClass :=
  UnitClass.all.find? fun u => u.code == b

/-- Operation-select codes (R70). -/
def Op.code (o : Op) : Byte :=
  match o with
  | .csum => 0x01
  | .csumVerify => 0x02
  | .frameSeal => 0x03
  | .frameOpen => 0x04
  | .cmdDecode => 0x10
  | .cmdEncode => 0x11
  | .stsDecode => 0x12
  | .stsEncode => 0x13
  | .ciDecode => 0x20
  | .ciEncode => 0x21
  | .ciSetDefaultTimeouts => 0x22
  | .itdFromNs => 0x28
  | .itdDecode => 0x29
  | .itdEncode => 0x2A
  | .serEscape => 0x30
  | .serUnescape => 0x31
  | .serFrameEncode => 0x32
  | .serFrameDecode => 0x33
  | .serByte => 0x34
  | .i2cTxn => 0x40
  | .spiTxn => 0x50
  | .sessionResult => 0x60
  | .framerReset => 0x70

/-- The operations in the order of R70's table. -/
def Op.all : List Op :=
  [.csum, .csumVerify, .frameSeal, .frameOpen, .cmdDecode, .cmdEncode, .stsDecode, .stsEncode,
   .ciDecode, .ciEncode, .ciSetDefaultTimeouts, .itdFromNs, .itdDecode, .itdEncode,
   .serEscape, .serUnescape, .serFrameEncode, .serFrameDecode, .serByte,
   .i2cTxn, .spiTxn, .sessionResult, .framerReset]

/-- The operation a select code names; none for a reserved code (R70, R93). -/
def Op.ofByte (b : Byte) : Option Op :=
  Op.all.find? fun o => o.code == b

/-! ## Fixed wire codes -/

/-- Parameter type codes of R80 other than the delay's, which is parameter P5. -/
def versionType : Byte := 0x01
/-- BUFFER_INFO (R80). -/
def bufferInfoType : Byte := 0x02
/-- COMMAND_TIMEOUTS (R80). -/
def timeoutsType : Byte := 0x03

/-- Legal values of P5: any byte but the three fixed type codes (R9, R151). -/
def itdTypeLegal (t : Byte) : Bool :=
  t != versionType && t != bufferInfoType && t != timeoutsType

/-- Serial start code (R83). -/
def startCode : Byte := 0x56
/-- Serial end code (R83). -/
def endCode : Byte := 0x9E
/-- Serial escape code (R83). -/
def escapeCode : Byte := 0xCC

/-- SPI WRITE prefix byte (R88). -/
def spiWriteCode : Byte := 0x11
/-- SPI READ prefix byte (R88). -/
def spiReadCode : Byte := 0x55

/-- The tag "LEN" in ASCII. PRESUMED (log 11): the spec marks the byte values as general knowledge (R88, G2). -/
def tagLen : Bytes := [0x4C, 0x45, 0x4E]
/-- The tag "RSP" in ASCII. PRESUMED (log 11). -/
def tagRsp : Bytes := [0x52, 0x53, 0x50]

end Sys2Proof
end

