-- ==== Sys2Proof/Machine/Flags.lean ====
section
/-! DEFINITION. The flag-like bit fields (10_state.md R37): packet header bytes (30_encoding.md R72, R73, R94) and the
I2C status byte (R35, R87). No flag persists from one step to the next. -/

namespace Sys2Proof

/-- `seq = b[0][4:0]` (R94). -/
def seqField (b0 : Byte) : BitVec 5 := b0.extractLsb' 0 5

/-- `sync = b[0][7]` (R94). -/
def syncField (b0 : Byte) : Bool := b0.getLsbD 7

/-- `resend = b[0][6]` (R94). -/
def resendField (b0 : Byte) : Bool := b0.getLsbD 6

/-- The reserved bits 6:5 of Command byte 0 (R72, R78). -/
def commandReserved (b0 : Byte) : BitVec 2 := b0.extractLsb' 5 2

/-- Command byte 0 from its fields, bit 7 first (R72). -/
def commandByte0 (sync : Bool) (rsv : BitVec 2) (seq : BitVec 5) : Byte :=
  BitVec.ofBool sync ++ rsv ++ seq

/-- Status byte 0 from its fields, bit 7 first (R73). -/
def statusByte0 (r7 resend r5 : Bool) (seq : BitVec 5) : Byte :=
  BitVec.ofBool r7 ++ BitVec.ofBool resend ++ BitVec.ofBool r5 ++ seq

/-- `(flag << n) | seq` of the encoders (R130, R141), on the 8-bit sequence operand. -/
def flagShifted (flag : Bool) (n : Nat) (seq : Byte) : Byte :=
  ((BitVec.ofBool flag).setWidth 8 <<< n) ||| seq

/-- `cmd_ready = raw[0]` (R35). -/
def PollStatus.cmdReady (p : PollStatus) : Bool := p.raw.getLsbD 0

/-- `rsp_ready = raw[1]` (R35). -/
def PollStatus.rspReady (p : PollStatus) : Bool := p.raw.getLsbD 1

/-- `bit7 = raw[7]`, recorded and given no meaning (R35, R250). -/
def PollStatus.bit7 (p : PollStatus) : Bool := p.raw.getLsbD 7

/-- The status byte with bit 0 set and the other bits as given (row I2C.CMD_READY). -/
def statusCmdReady (hi : BitVec 7) : Byte := hi ++ (1 : BitVec 1)

/-- The status byte with bit 1 set and the other bits as given (row I2C.RSP_READY). -/
def statusRspReady (hi : BitVec 6) (lo : BitVec 1) : Byte := hi ++ (1 : BitVec 1) ++ lo

/-- The status byte with bit 7 set and the other bits as given (row I2C.BIT7). -/
def statusBit7 (lo : BitVec 7) : Byte := (1 : BitVec 1) ++ lo

end Sys2Proof
end

