-- ==== Sys2Proof/WellFormed.lean ====
section
/-! DEFINITION. The checks on operands that the types of Syntax.lean do not already make. -/

namespace Sys2Proof

/-- "No c occurs twice" in the overrides of a ClientInfo value (10_state.md R34). -/
def ClientInfo.wf (ci : ClientInfo) : Bool := decide ((ci.overrides.map Prod.fst).Nodup)

/-- A Result value is well-formed when the record it may hold is. -/
def Result.wf (r : Result) : Bool :=
  match r with
  | .value (.info ci) => ci.wf
  | .value (.word _) | .value (.flag _) | .value (.bytes _) | .value (.delay _) => true
  | .none | .cmd _ | .sts _ | .poll _ | .len _ | .notReady | .err _ _ => true

/-- The operand byte of FRAMER_RESET is one of the four unit classes (30_encoding.md R71). -/
def unitByteLegal (b : Byte) : Bool := b == 0x34 || b == 0x40 || b == 0x50 || b == 0x60

/-- Well-formed instructions: CI_ENCODE and CI_SET_DEFAULT_TIMEOUTS take a ClientInfo value (R34, R160, R162),
SESSION_RESULT takes a Result value (R71), FRAMER_RESET one of four unit classes (R71). -/
def Instr.wf (i : Instr) : Bool :=
  match i with
  | .ciEncode ci => ci.wf
  | .ciSetDefaultTimeouts ci => ci.wf
  | .sessionResult _ r => r.wf
  | .framerReset u _ => unitByteLegal u
  | .csum _ | .csumVerify _ _ | .frameSeal _ | .frameOpen _ => true
  | .cmdDecode _ | .cmdEncode _ _ _ _ | .stsDecode _ | .stsEncode _ _ _ _ => true
  | .ciDecode _ | .itdFromNs _ | .itdDecode _ | .itdEncode _ => true
  | .serEscape _ | .serUnescape _ | .serFrameEncode _ | .serFrameDecode _ _ | .serByte _ _ => true
  | .i2cTxn _ _ _ _ | .spiTxn _ _ _ => true
  | .cmdGetClientInfo _ _ _ _ | .cmdStartTransfer _ _ _ _ | .cmdWriteChunk _ _ _ _ => true
  | .cmdGetImageState _ _ _ _ | .cmdEndTransfer _ _ _ _ => true
  | .stsSuccess _ _ _ _ _ | .stsNotSupported _ _ _ _ _ | .stsNotAuthorized _ _ _ _ _ => true
  | .stsPacketTransportFailure _ _ _ _ _ | .stsAbortFileTransfer _ _ _ _ _ => true
  | .tlvProtocolVersion _ _ | .tlvBufferInfo _ _ | .tlvCommandTimeouts _ _ => true
  | .tlvInterTransactionDelay _ _ => true
  | .serStart _ | .serEnd _ | .serEsc _ | .serEsc56 _ | .serEsc9E _ | .serEscCC _ => true
  | .spiWrite _ _ _ | .spiRead _ _ _ | .spiTagLen _ _ _ _ | .spiTagRsp _ _ _ _ => true
  | .i2cCmdReady _ _ _ | .i2cRspReady _ _ _ _ | .i2cBit7 _ _ _ => true

end Sys2Proof
end

