-- ==== Sys2Proof/Decode.lean ====
section
/-! DEFINITION. The decoder, total on any bytes and rejecting by name, and after it the encoder. The operation-select
codes and the wire codes are the spec's (30_encoding.md R70 to R88); how a typed operand of a request is laid out in
bytes is the model's own (DESIGN CHOICE, log 2): the spec says only that operands are typed values in R70's order,
each byte sequence given with its length (R71). -/

namespace Sys2Proof

/-! ## Operand readers -/

/-- What an operand reader gives: the operand and the bytes after it, or why there is none. -/
abbrev Parse (α : Type) := Except DecodeError (α × Bytes)

/-- Read one operand, then go on with the bytes after it. -/
def andThen {α β : Type} (p : Parse α) (f : α → Bytes → Parse β) : Parse β :=
  match p with
  | .ok (a, r) => f a r
  | .error e => .error e

/-- One byte. -/
def getByte (bs : Bytes) : Parse Byte :=
  match bs with
  | [] => .error .truncated
  | b :: r => .ok (b, r)

/-- A one-bit operand: a byte 00 or 01. -/
def getFlag (bs : Bytes) : Parse Bool :=
  andThen (getByte bs) fun b r =>
    if b = 0x00 then .ok (false, r) else if b = 0x01 then .ok (true, r) else .error (.badFlag b)

/-- `dir`: 00 is CMD, 01 is RSP (R204; log 2). -/
def getDir (bs : Bytes) : Parse Dir :=
  andThen (getByte bs) fun b r =>
    if b = 0x00 then .ok (.cmd, r) else if b = 0x01 then .ok (.rsp, r) else .error (.badSelector b)

/-- `rw`: 00 is W, 01 is R (R241; log 2). -/
def getRw (bs : Bytes) : Parse Rw :=
  andThen (getByte bs) fun b r =>
    if b = 0x00 then .ok (.write, r) else if b = 0x01 then .ok (.read, r) else .error (.badSelector b)

/-- A 7-bit address in a byte (R241). -/
def getAddr (bs : Bytes) : Parse (BitVec 7) :=
  andThen (getByte bs) fun b r => if b.toNat < 128 then .ok (b.setWidth 7, r) else .error (.badRange b)

/-- A 5-bit sequence number in a byte (R32). -/
def getSeq (bs : Bytes) : Parse (BitVec 5) :=
  andThen (getByte bs) fun b r => if b.toNat < 32 then .ok (b.setWidth 5, r) else .error (.badRange b)

/-- A 16-bit operand, low byte first (R53). -/
def getU16 (bs : Bytes) : Parse U16 :=
  andThen (getByte bs) fun lo r => andThen (getByte r) fun hi r => .ok (le16 lo hi, r)

/-- A 32-bit operand, low byte first (R53). -/
def getU32 (bs : Bytes) : Parse U32 :=
  andThen (getByte bs) fun b0 r => andThen (getByte r) fun b1 r =>
    andThen (getByte r) fun b2 r => andThen (getByte r) fun b3 r => .ok (le32 b0 b1 b2 b3, r)

/-- An unbounded natural, base 128, low digit first, bit 7 set on every byte but the last (log 2): R8 and R11 bound
neither the operand of ITD_FROM_NS nor a length. -/
def getNat : Bytes → Parse Nat
  | [] => .error .truncated
  | b :: r =>
    if b.toNat < 128 then .ok (b.toNat, r)
    else andThen (getNat r) fun n r' => .ok (b.toNat - 128 + 128 * n, r')

/-- A byte sequence, "given with its length" (R71). -/
def getBytes (bs : Bytes) : Parse Bytes :=
  andThen (getNat bs) fun n r => if n ≤ r.length then .ok (r.take n, r.drop n) else .error .truncated

/-- A command code operand of a packet or a record (R32, R34). -/
def getCommand (bs : Bytes) : Parse CommandCode :=
  andThen (getByte bs) fun b r =>
    match CommandCode.ofByte b with
    | some c => .ok (c, r)
    | none => .error (.badSelector b)

/-- A status code operand of a packet (R33). -/
def getStatus (bs : Bytes) : Parse StatusCode :=
  andThen (getByte bs) fun b r =>
    match StatusCode.ofByte b with
    | some c => .ok (c, r)
    | none => .error (.badSelector b)

/-- An optional byte: a flag, then the byte if the flag is set (log 2). -/
def getOptByte (bs : Bytes) : Parse (Option Byte) :=
  andThen (getFlag bs) fun present r =>
    match present with
    | true => andThen (getByte r) fun b r => .ok (some b, r)
    | false => .ok (none, r)

/-- An optional 32-bit value (log 2). -/
def getOptU32 (bs : Bytes) : Parse (Option U32) :=
  andThen (getFlag bs) fun present r =>
    match present with
    | true => andThen (getU32 r) fun n r => .ok (some n, r)
    | false => .ok (none, r)

/-- `n` overrides, each a command code and a timeout (R34; log 2). -/
def getOverrides : Nat → Bytes → Parse (List (CommandCode × U16))
  | 0, r => .ok ([], r)
  | n + 1, r =>
    andThen (getCommand r) fun c r => andThen (getU16 r) fun t r =>
      andThen (getOverrides n r) fun l r => .ok ((c, t) :: l, r)

/-- A Version operand (R34; log 2). -/
def getVersion (bs : Bytes) : Parse Version :=
  andThen (getByte bs) fun major r => andThen (getByte r) fun minor r =>
    andThen (getByte r) fun patch r => andThen (getOptByte r) fun pre r => .ok (⟨major, minor, patch, pre⟩, r)

/-- A ClientInfo operand, in R34's field order (log 2). -/
def getClientInfo (bs : Bytes) : Parse ClientInfo :=
  andThen (getVersion bs) fun ver r => andThen (getByte r) fun count r =>
    andThen (getU16 r) fun size r => andThen (getU16 r) fun deft r =>
      andThen (getNat r) fun n r => andThen (getOverrides n r) fun ovr r =>
        andThen (getOptU32 r) fun itd r => .ok (⟨ver, count, size, deft, ovr, itd⟩, r)

/-- A Value operand: a tag byte 00 to 04, then the value (log 2). -/
def getValue (bs : Bytes) : Parse Value :=
  andThen (getByte bs) fun tag r =>
    match tag.toNat with
    | 0 => andThen (getU16 r) fun c r => .ok (.word c, r)
    | 1 => andThen (getFlag r) fun b r => .ok (.flag b, r)
    | 2 => andThen (getBytes r) fun b r => .ok (.bytes b, r)
    | 3 => andThen (getClientInfo r) fun ci r => .ok (.info ci, r)
    | 4 => andThen (getU32 r) fun n r => .ok (.delay n, r)
    | _ => .error (.badSelector tag)

/-- An error kind and sub-code pair of R330 and R331. -/
def getErrorKind (bs : Bytes) : Parse ErrorKind :=
  andThen (getByte bs) fun kind r => andThen (getByte r) fun sub r =>
    match ErrorKind.ofCodes kind sub with
    | some e => .ok (e, r)
    | none => .error (.badSelector kind)

/-- A recorded phase (R31; log 2). -/
def getErrPhase (bs : Bytes) : Parse ErrPhase :=
  andThen (getByte bs) fun b r =>
    match ErrPhase.ofByte b with
    | some p => .ok (p, r)
    | none => .error (.badSelector b)

/-- A Result operand: a tag byte 00 to 07 in R30's order, then its fields (log 2). -/
def getResult (bs : Bytes) : Parse Result :=
  andThen (getByte bs) fun tag r =>
    match tag.toNat with
    | 0 => .ok (.none, r)
    | 1 => andThen (getSeq r) fun seq r => andThen (getFlag r) fun sync r => andThen (getCommand r) fun cmd r =>
             andThen (getBytes r) fun data r => .ok (.cmd ⟨seq, sync, cmd, data⟩, r)
    | 2 => andThen (getSeq r) fun seq r => andThen (getFlag r) fun resend r => andThen (getStatus r) fun status r =>
             andThen (getBytes r) fun data r => .ok (.sts ⟨seq, resend, status, data⟩, r)
    | 3 => andThen (getByte r) fun raw r => .ok (.poll ⟨raw⟩, r)
    | 4 => andThen (getU16 r) fun l r => .ok (.len l, r)
    | 5 => .ok (.notReady, r)
    | 6 => andThen (getValue r) fun v r => .ok (.value v, r)
    | 7 => andThen (getErrorKind r) fun e r => andThen (getErrPhase r) fun ph r => .ok (.err e ph, r)
    | _ => .error (.badSelector tag)

/-! ## The decoder -/

/-- "k is the instance index for agent operations and 0 for the others" (R71). -/
def indexZero (k : Byte) (p : Parse Instr) : Parse Instr :=
  if k = 0x00 then p else .error (.nonzeroIndex k)

/-- The operands of a request, in R70's order, after `op` and `k` (R71). -/
def getOperands (o : Op) (k : Byte) (r : Bytes) : Parse Instr :=
  match o with
  | .csum => indexZero k <| andThen (getBytes r) fun d r => .ok (.csum d, r)
  | .csumVerify => indexZero k <| andThen (getBytes r) fun d r => andThen (getU16 r) fun c r => .ok (.csumVerify d c, r)
  | .frameSeal => indexZero k <| andThen (getBytes r) fun p r => .ok (.frameSeal p, r)
  | .frameOpen => indexZero k <| andThen (getBytes r) fun f r => .ok (.frameOpen f, r)
  | .cmdDecode => indexZero k <| andThen (getBytes r) fun b r => .ok (.cmdDecode b, r)
  | .cmdEncode => indexZero k <| andThen (getByte r) fun seq r => andThen (getFlag r) fun sync r =>
      andThen (getByte r) fun cmd r => andThen (getBytes r) fun data r => .ok (.cmdEncode seq sync cmd data, r)
  | .stsDecode => indexZero k <| andThen (getBytes r) fun b r => .ok (.stsDecode b, r)
  | .stsEncode => indexZero k <| andThen (getByte r) fun seq r => andThen (getFlag r) fun resend r =>
      andThen (getByte r) fun status r => andThen (getBytes r) fun data r => .ok (.stsEncode seq resend status data, r)
  | .ciDecode => indexZero k <| andThen (getBytes r) fun s r => .ok (.ciDecode s, r)
  | .ciEncode => indexZero k <| andThen (getClientInfo r) fun ci r => .ok (.ciEncode ci, r)
  | .ciSetDefaultTimeouts => indexZero k <| andThen (getClientInfo r) fun ci r => .ok (.ciSetDefaultTimeouts ci, r)
  | .itdFromNs => indexZero k <| andThen (getNat r) fun n r => .ok (.itdFromNs n, r)
  | .itdDecode => indexZero k <| andThen (getBytes r) fun b r => .ok (.itdDecode b, r)
  | .itdEncode => indexZero k <| andThen (getU32 r) fun n r => .ok (.itdEncode n, r)
  | .serEscape => indexZero k <| andThen (getBytes r) fun d r => .ok (.serEscape d, r)
  | .serUnescape => indexZero k <| andThen (getBytes r) fun e r => .ok (.serUnescape e, r)
  | .serFrameEncode => indexZero k <| andThen (getBytes r) fun p r => .ok (.serFrameEncode p, r)
  | .serFrameDecode => indexZero k <| andThen (getBytes r) fun f r => andThen (getDir r) fun dir r =>
      .ok (.serFrameDecode f dir, r)
  | .serByte => andThen (getByte r) fun b r => .ok (.serByte k b, r)
  | .i2cTxn => andThen (getRw r) fun rw r => andThen (getAddr r) fun addr r => andThen (getBytes r) fun data r =>
      .ok (.i2cTxn k rw addr data, r)
  | .spiTxn => andThen (getBytes r) fun mosi r => andThen (getBytes r) fun miso r => .ok (.spiTxn k mosi miso, r)
  | .sessionResult => andThen (getResult r) fun x r => .ok (.sessionResult k x, r)
  | .framerReset => andThen (getByte r) fun u r => .ok (.framerReset u k, r)

/-- A request `(op : 8, k : 8, operands)` (R71); an operation-select code outside R70's table is refused (R93). -/
def getRequest (bs : Bytes) : Parse Instr :=
  andThen (getByte bs) fun op r =>
    match Op.ofByte op with
    | none => .error (.reservedOperation op)
    | some o => andThen (getByte r) fun k r => getOperands o k r

/-! A wire input that begins with a row's code is that row's instruction; any other input of the same unit is the unit's own
operation on it, which reports what the spec says of such an input (log 3). -/

/-- A Command packet by the row of its command code (R72, R75). Any other packet, too short or with a code of R77, is what
CMD_DECODE takes. -/
def getCommandPacket (bs : Bytes) : Instr :=
  match bs with
  | b0 :: b1 :: data =>
    match CommandCode.ofByte b1 with
    | some .getClientInfo => .cmdGetClientInfo (syncField b0) (commandReserved b0) (seqField b0) data
    | some .startTransfer => .cmdStartTransfer (syncField b0) (commandReserved b0) (seqField b0) data
    | some .writeChunk => .cmdWriteChunk (syncField b0) (commandReserved b0) (seqField b0) data
    | some .getImageState => .cmdGetImageState (syncField b0) (commandReserved b0) (seqField b0) data
    | some .endTransfer => .cmdEndTransfer (syncField b0) (commandReserved b0) (seqField b0) data
    | none => .cmdDecode bs
  | _ => .cmdDecode bs

/-- A Status packet by the row of its status code (R73, R76). Any other packet, too short or with a code of R77, is what
STS_DECODE takes. -/
def getStatusPacket (bs : Bytes) : Instr :=
  match bs with
  | b0 :: b1 :: data =>
    match StatusCode.ofByte b1 with
    | some .success => .stsSuccess (b0.getLsbD 7) (resendField b0) (b0.getLsbD 5) (seqField b0) data
    | some .notSupported => .stsNotSupported (b0.getLsbD 7) (resendField b0) (b0.getLsbD 5) (seqField b0) data
    | some .notAuthorized => .stsNotAuthorized (b0.getLsbD 7) (resendField b0) (b0.getLsbD 5) (seqField b0) data
    | some .packetTransportFailure =>
      .stsPacketTransportFailure (b0.getLsbD 7) (resendField b0) (b0.getLsbD 5) (seqField b0) data
    | some .abortFileTransfer => .stsAbortFileTransfer (b0.getLsbD 7) (resendField b0) (b0.getLsbD 5) (seqField b0) data
    | none => .stsDecode bs
  | _ => .stsDecode bs

/-- A parameter stream by the row of its first record's type byte, with P5 = `p5` (R79, R80, R151). Any other stream,
without a whole record head or with an unknown type first (R82), is what CI_DECODE takes. -/
def getParameterStream (p5 : Byte) (bs : Bytes) : Instr :=
  match bs with
  | t :: l :: body =>
    if t = versionType then .tlvProtocolVersion l body
    else if t = bufferInfoType then .tlvBufferInfo l body
    else if t = timeoutsType then .tlvCommandTimeouts l body
    else if t = p5 then .tlvInterTransactionDelay l body
    else .ciDecode bs
  | _ => .ciDecode bs

/-- One byte on the line of `SER[k]` (R40): a start or end code (R83), or any other byte, which SER_BYTE takes. -/
def getSerialLine (k : Byte) (bs : Bytes) : Parse Instr :=
  andThen (getByte bs) fun b r =>
    if b = startCode then .ok (.serStart k, r)
    else if b = endCode then .ok (.serEnd k, r)
    else .ok (.serByte k b, r)

/-- A frame body that begins with the escape code (R83), or any other, which SER_UNESCAPE takes. -/
def getEscapedBody (bs : Bytes) : Instr :=
  match bs with
  | b :: rest => if b = escapeCode then .serEsc rest else .serUnescape bs
  | [] => .serUnescape bs

/-- A frame body that begins with one of the three legal escape pairs (R84), or any other, which SER_UNESCAPE takes. -/
def getEscapePair (bs : Bytes) : Instr :=
  match bs with
  | b :: y :: rest =>
    if b = escapeCode ∧ y = 0xA9 then .serEsc56 rest
    else if b = escapeCode ∧ y = 0x61 then .serEsc9E rest
    else if b = escapeCode ∧ y = 0x33 then .serEscCC rest
    else .serUnescape bs
  | _ => .serUnescape bs

/-- An SPI transaction of `SPI[k]`: the outbound first byte, then the rest of mosi and miso, each with its length
(R88; log 2). No bytes are a transaction without a byte. A first byte of no row, and an empty mosi, are what SPI_TXN
takes (R89, R286). -/
def getSpiOutbound (k : Byte) (bs : Bytes) : Parse Instr :=
  match bs with
  | [] => .ok (.spiTxn k [] [], [])
  | b :: r =>
    andThen (getBytes r) fun rest r => andThen (getBytes r) fun miso r =>
      if b = spiWriteCode then .ok (.spiWrite k rest miso, r)
      else if b = spiReadCode then .ok (.spiRead k rest miso, r)
      else .ok (.spiTxn k (b :: rest) miso, r)

/-- The reply to an SPI query of `SPI[k]`: `miso[1..4)`, then the dummy byte, the rest of mosi and `miso[4..]`, each sequence
with its length (R88; log 2). Three bytes that are no tag are a query which SPI_TXN takes (R89, R283). -/
def getSpiReply (k : Byte) (bs : Bytes) : Parse Instr :=
  andThen (getByte bs) fun t0 r => andThen (getByte r) fun t1 r => andThen (getByte r) fun t2 r =>
    andThen (getByte r) fun dummy r => andThen (getBytes r) fun rest r => andThen (getBytes r) fun body r =>
      if [t0, t1, t2] = tagLen then .ok (.spiTagLen k rest dummy body, r)
      else if [t0, t1, t2] = tagRsp then .ok (.spiTagRsp k rest dummy body, r)
      else .ok (.spiTxn k (spiReadCode :: rest) (dummy :: t0 :: t1 :: t2 :: body), r)

/-- A read of `I2C[k]` with the given data. Its address is not in the delivery, and no rule looks at it (R249): 0, DESIGN
CHOICE, safe (log 3). -/
def readTxn (k : Byte) (data : Bytes) : Instr := .i2cTxn k .read 0 data

/-- A read of `I2C[k]`, by the row of the named bit if the status byte has it set (R87); any other read is what I2C_TXN
takes. -/
def getI2cStatus (k : Byte) (bit : StatusBit) (bs : Bytes) : Instr :=
  match bs with
  | [] => readTxn k bs
  | st :: surplus =>
    match bit with
    | .cmdReady => if st.getLsbD 0 then .i2cCmdReady k (st.extractLsb' 1 7) surplus else readTxn k bs
    | .rspReady =>
      if st.getLsbD 1 then .i2cRspReady k (st.extractLsb' 2 6) (st.extractLsb' 0 1) surplus else readTxn k bs
    | .bit7 => if st.getLsbD 7 then .i2cBit7 k (st.extractLsb' 0 7) surplus else readTxn k bs

/-- Read one instruction from the front of the bytes of one delivery. Inputs whose end only the transport marks (R90) take all
the bytes there are. -/
def getInstr (p5 : Byte) (src : Source) (bs : Bytes) : Parse Instr :=
  match src with
  | .request => getRequest bs
  | .commandPacket => .ok (getCommandPacket bs, [])
  | .statusPacket => .ok (getStatusPacket bs, [])
  | .parameterStream => .ok (getParameterStream p5 bs, [])
  | .serialLine k => getSerialLine k bs
  | .escapedBody => .ok (getEscapedBody bs, [])
  | .escapePair => .ok (getEscapePair bs, [])
  | .spiOutbound k => getSpiOutbound k bs
  | .spiReply k => getSpiReply k bs
  | .i2cStatus k bit => .ok (getI2cStatus k bit bs, [])

/-- The decoder: one delivery is exactly one instruction (R71, R40). `p5` is parameter P5. -/
def decode (p5 : Byte) (src : Source) (bs : Bytes) : Except DecodeError Instr :=
  match getInstr p5 src bs with
  | .ok (i, []) => .ok i
  | .ok (_, _ :: _) => .error .trailingBytes
  | .error e => .error e

/-! ## The encoder -/

/-- A flag operand. -/
def putFlag (b : Bool) : Bytes := if b then [0x01] else [0x00]

/-- `dir` (see `getDir`). -/
def putDir (d : Dir) : Bytes :=
  match d with
  | .cmd => [0x00]
  | .rsp => [0x01]

/-- `rw` (see `getRw`). -/
def putRw (x : Rw) : Bytes :=
  match x with
  | .write => [0x00]
  | .read => [0x01]

/-- The digits of `n` in base 128 (see `getNat`); `fuel` bounds how many there are. -/
def putDigits : Nat → Nat → Bytes
  | 0, n => [BitVec.ofNat 8 (n % 128)]
  | fuel + 1, n =>
    if n < 128 then [BitVec.ofNat 8 n]
    else BitVec.ofNat 8 (n % 128 + 128) :: putDigits fuel (n / 128)

/-- An unbounded natural (see `getNat`). A number has at most `n` further digits, so `n` is enough fuel. -/
def putNat (n : Nat) : Bytes := putDigits n n

/-- A byte sequence with its length (R71). -/
def putBytes (b : Bytes) : Bytes := putNat b.length ++ b

/-- An optional byte (see `getOptByte`). -/
def putOptByte (x : Option Byte) : Bytes :=
  match x with
  | some b => [0x01, b]
  | none => [0x00]

/-- An optional 32-bit value (see `getOptU32`). -/
def putOptU32 (x : Option U32) : Bytes :=
  match x with
  | some n => 0x01 :: le32Bytes n
  | none => [0x00]

/-- The overrides of a record (see `getOverrides`). -/
def putOverrides (l : List (CommandCode × U16)) : Bytes :=
  l.flatMap fun p => p.1.code :: le16Bytes p.2

/-- A Version operand (see `getVersion`). -/
def putVersion (v : Version) : Bytes := [v.major, v.minor, v.patch] ++ putOptByte v.pre

/-- A ClientInfo operand (see `getClientInfo`). -/
def putClientInfo (ci : ClientInfo) : Bytes :=
  putVersion ci.version ++ [ci.bufferCount] ++ le16Bytes ci.bufferSize ++ le16Bytes ci.defaultTimeout ++
    putNat ci.overrides.length ++ putOverrides ci.overrides ++ putOptU32 ci.itd

/-- A Value operand (see `getValue`). -/
def putValue (v : Value) : Bytes :=
  match v with
  | .word c => 0x00 :: le16Bytes c
  | .flag b => 0x01 :: putFlag b
  | .bytes b => 0x02 :: putBytes b
  | .info ci => 0x03 :: putClientInfo ci
  | .delay n => 0x04 :: le32Bytes n

/-- A Result operand (see `getResult`). -/
def putResult (r : Result) : Bytes :=
  match r with
  | .none => [0x00]
  | .cmd p => [0x01, p.seq.setWidth 8] ++ putFlag p.sync ++ [p.cmd.code] ++ putBytes p.data
  | .sts p => [0x02, p.seq.setWidth 8] ++ putFlag p.resend ++ [p.status.code] ++ putBytes p.data
  | .poll p => [0x03, p.raw]
  | .len l => 0x04 :: le16Bytes l
  | .notReady => [0x05]
  | .value v => 0x06 :: putValue v
  | .err e ph => [0x07, e.code, e.sub, ph.code]

/-- `op k` of an operation that has no instance (R71). -/
def head0 (o : Op) : Bytes := [o.code, 0x00]

/-- The bytes of an instruction, from the table of R70 and the layouts of R72 to R88. -/
def encode (p5 : Byte) (i : Instr) : Bytes :=
  match i with
  | .csum d => head0 .csum ++ putBytes d
  | .csumVerify d c => head0 .csumVerify ++ putBytes d ++ le16Bytes c
  | .frameSeal p => head0 .frameSeal ++ putBytes p
  | .frameOpen f => head0 .frameOpen ++ putBytes f
  | .cmdDecode b => head0 .cmdDecode ++ putBytes b
  | .cmdEncode seq sync cmd data => head0 .cmdEncode ++ [seq] ++ putFlag sync ++ [cmd] ++ putBytes data
  | .stsDecode b => head0 .stsDecode ++ putBytes b
  | .stsEncode seq resend status data => head0 .stsEncode ++ [seq] ++ putFlag resend ++ [status] ++ putBytes data
  | .ciDecode s => head0 .ciDecode ++ putBytes s
  | .ciEncode ci => head0 .ciEncode ++ putClientInfo ci
  | .ciSetDefaultTimeouts ci => head0 .ciSetDefaultTimeouts ++ putClientInfo ci
  | .itdFromNs n => head0 .itdFromNs ++ putNat n
  | .itdDecode b => head0 .itdDecode ++ putBytes b
  | .itdEncode n => head0 .itdEncode ++ le32Bytes n
  | .serEscape d => head0 .serEscape ++ putBytes d
  | .serUnescape e => head0 .serUnescape ++ putBytes e
  | .serFrameEncode p => head0 .serFrameEncode ++ putBytes p
  | .serFrameDecode f dir => head0 .serFrameDecode ++ putBytes f ++ putDir dir
  | .serByte k b => [Op.serByte.code, k, b]
  | .i2cTxn k rw addr data => [Op.i2cTxn.code, k] ++ putRw rw ++ [addr.setWidth 8] ++ putBytes data
  | .spiTxn k mosi miso => [Op.spiTxn.code, k] ++ putBytes mosi ++ putBytes miso
  | .sessionResult k r => [Op.sessionResult.code, k] ++ putResult r
  | .framerReset u k => [Op.framerReset.code, k, u]
  | .cmdGetClientInfo sync rsv seq data => commandByte0 sync rsv seq :: CommandCode.getClientInfo.code :: data
  | .cmdStartTransfer sync rsv seq data => commandByte0 sync rsv seq :: CommandCode.startTransfer.code :: data
  | .cmdWriteChunk sync rsv seq data => commandByte0 sync rsv seq :: CommandCode.writeChunk.code :: data
  | .cmdGetImageState sync rsv seq data => commandByte0 sync rsv seq :: CommandCode.getImageState.code :: data
  | .cmdEndTransfer sync rsv seq data => commandByte0 sync rsv seq :: CommandCode.endTransfer.code :: data
  | .stsSuccess r7 resend r5 seq data => statusByte0 r7 resend r5 seq :: StatusCode.success.code :: data
  | .stsNotSupported r7 resend r5 seq data => statusByte0 r7 resend r5 seq :: StatusCode.notSupported.code :: data
  | .stsNotAuthorized r7 resend r5 seq data => statusByte0 r7 resend r5 seq :: StatusCode.notAuthorized.code :: data
  | .stsPacketTransportFailure r7 resend r5 seq data =>
    statusByte0 r7 resend r5 seq :: StatusCode.packetTransportFailure.code :: data
  | .stsAbortFileTransfer r7 resend r5 seq data =>
    statusByte0 r7 resend r5 seq :: StatusCode.abortFileTransfer.code :: data
  | .tlvProtocolVersion l body => versionType :: l :: body
  | .tlvBufferInfo l body => bufferInfoType :: l :: body
  | .tlvCommandTimeouts l body => timeoutsType :: l :: body
  | .tlvInterTransactionDelay l body => p5 :: l :: body
  | .serStart _ => [startCode]
  | .serEnd _ => [endCode]
  | .serEsc rest => escapeCode :: rest
  | .serEsc56 rest => escapeCode :: 0xA9 :: rest
  | .serEsc9E rest => escapeCode :: 0x61 :: rest
  | .serEscCC rest => escapeCode :: 0x33 :: rest
  | .spiWrite _ rest miso => spiWriteCode :: (putBytes rest ++ putBytes miso)
  | .spiRead _ rest miso => spiReadCode :: (putBytes rest ++ putBytes miso)
  | .spiTagLen _ rest dummy body => tagLen ++ [dummy] ++ putBytes rest ++ putBytes body
  | .spiTagRsp _ rest dummy body => tagRsp ++ [dummy] ++ putBytes rest ++ putBytes body
  | .i2cCmdReady _ hi surplus => statusCmdReady hi :: surplus
  | .i2cRspReady _ hi lo surplus => statusRspReady hi lo :: surplus
  | .i2cBit7 _ lo surplus => statusBit7 lo :: surplus

/-- The source an instruction's bytes come from: its row's format in the opcode table (log 4). -/
def sourceOf (i : Instr) : Source :=
  match i with
  | .csum _ | .csumVerify _ _ | .frameSeal _ | .frameOpen _ => .request
  | .cmdDecode _ | .cmdEncode _ _ _ _ | .stsDecode _ | .stsEncode _ _ _ _ => .request
  | .ciDecode _ | .ciEncode _ | .ciSetDefaultTimeouts _ => .request
  | .itdFromNs _ | .itdDecode _ | .itdEncode _ => .request
  | .serEscape _ | .serUnescape _ | .serFrameEncode _ | .serFrameDecode _ _ | .serByte _ _ => .request
  | .i2cTxn _ _ _ _ | .spiTxn _ _ _ | .sessionResult _ _ | .framerReset _ _ => .request
  | .cmdGetClientInfo _ _ _ _ | .cmdStartTransfer _ _ _ _ | .cmdWriteChunk _ _ _ _ => .commandPacket
  | .cmdGetImageState _ _ _ _ | .cmdEndTransfer _ _ _ _ => .commandPacket
  | .stsSuccess _ _ _ _ _ | .stsNotSupported _ _ _ _ _ | .stsNotAuthorized _ _ _ _ _ => .statusPacket
  | .stsPacketTransportFailure _ _ _ _ _ | .stsAbortFileTransfer _ _ _ _ _ => .statusPacket
  | .tlvProtocolVersion _ _ | .tlvBufferInfo _ _ | .tlvCommandTimeouts _ _ => .parameterStream
  | .tlvInterTransactionDelay _ _ => .parameterStream
  | .serStart k | .serEnd k => .serialLine k
  | .serEsc _ => .escapedBody
  | .serEsc56 _ | .serEsc9E _ | .serEscCC _ => .escapePair
  | .spiWrite k _ _ | .spiRead k _ _ => .spiOutbound k
  | .spiTagLen k _ _ _ | .spiTagRsp k _ _ _ => .spiReply k
  | .i2cCmdReady k _ _ => .i2cStatus k .cmdReady
  | .i2cRspReady k _ _ _ => .i2cStatus k .rspReady
  | .i2cBit7 k _ _ => .i2cStatus k .bit7

/-! ## Words of the opcode table -/

/-- A word of the opcode table as one delivery, before its zero operands. The number is read as the table numbers it:
one byte; or byte 0 in bits 15:8 and byte 1 in bits 7:0 (R74, R84); or the first tag byte in bits 23:16 (R88). Where two
formats share a word of one width, the request comes first, then the serial, SPI and status codes, and a Command
header before a Status header or a parameter record; no escape pair is a header (log 4). -/
def tableSource (nbits w : Nat) : Source × Bytes :=
  let b0 : Byte := BitVec.ofNat 8 w
  let b1 : Byte := BitVec.ofNat 8 (w / 256)
  let b2 : Byte := BitVec.ofNat 8 (w / 65536)
  if nbits ≤ 8 then
    if (Op.ofByte b0).isSome then (.request, [b0])
    else if b0 = spiReadCode then (.spiOutbound 0, [b0])
    else if b0 = startCode ∨ b0 = endCode then (.serialLine 0, [b0])
    else if b0 = escapeCode then (.escapedBody, [b0])
    else if b0.getLsbD 7 then (.i2cStatus 0 .bit7, [b0])
    else (.request, [b0])
  else if nbits ≤ 16 then
    if b1 = escapeCode ∧ (b0 = 0xA9 ∨ b0 = 0x61 ∨ b0 = 0x33) then (.escapePair, [b1, b0])
    else (.commandPacket, [b1, b0])
  else (.spiReply 0, [b2, b1, b0])

/-- Add zero bytes while operands are missing: "every bit above nbits is 0". `fuel` bounds how many. -/
def withZeroOperands (src : Source) : Nat → Bytes → Bytes
  | 0, bs => bs
  | fuel + 1, bs =>
    match decode Config.itdTypeCode src bs with
    | .error .truncated => withZeroOperands src fuel (bs ++ [0x00])
    | _ => bs

/-- The delivery of a table word with zero operands; 16 zero bytes are more than any row needs. -/
def tableDelivery (nbits w : Nat) : Source × Bytes :=
  ((tableSource nbits w).1, withZeroOperands (tableSource nbits w).1 16 (tableSource nbits w).2)

/-- The instruction the decoder reads from a word of the opcode table; none where it refuses. -/
def decodeTableWord (nbits w : Nat) : Option Instr :=
  match decode Config.itdTypeCode (tableDelivery nbits w).1 (tableDelivery nbits w).2 with
  | .ok i => some i
  | .error _ => none

end Sys2Proof
end

