-- ==== Sys2Proof/Machine/State.lean ====
section
/-! DEFINITION. The state of the block as plain data (10_state.md): the agents with their parameters, the result port, and
the host's actions not yet taken; the reasons a step can stop; the state after reset. -/

namespace Sys2Proof.Machine

/-- `SER[k].state` (R24). -/
inductive SerState where
  | idle | decoding
  deriving DecidableEq, Repr

/-- A serial framer: P1, P2 (read-only, R36) and its state (R24). -/
structure SerFramer where
  dir   : Dir
  cap   : Option Nat
  state : SerState
  buf   : Bytes
  deriving DecidableEq, Repr

/-- Values of P4 `I2C_BIT7_MODE`: only IGNORE is legal; the variant is what a refused creation may ask for (R9, R250). -/
inductive Bit7Mode where
  | ignore | variant
  deriving DecidableEq, Repr

/-- An I2C framer: P3, P4 (read-only, R36) and its state (R26). -/
structure I2cFramer where
  adjust   : Nat
  bit7Mode : Bit7Mode
  phase    : I2cPhase
  rspLen   : Option U16
  deriving DecidableEq, Repr

/-- An SPI framer: P6 (read-only, R36) and its state (R28). -/
structure SpiFramer where
  adjust : Nat
  rspLen : Option U16
  deriving DecidableEq, Repr

/-- A session pairing unit's state (R29). -/
structure SessionUnit where
  lastCmd : Option CommandCode
  deriving DecidableEq, Repr

/-- What the result port holds: a result, or a session unit's pair `(r, ci)` (R30, R311). -/
inductive Reply where
  | result (r : Result)
  | pair (r : Result) (ci : Option Result)
  deriving DecidableEq, Repr

/-- What the host creates, with its parameters (R9, R313): an agent at an index of its choice (R343; log 6), or the
Client-Info Codec with its P5 (R9, R151; log 17). `SER_DIR` has no default: it must be given. -/
inductive Creation where
  | ser (k : Nat) (dir : Dir) (cap : Option Nat)
  | i2c (k : Nat) (adjust : Nat) (bit7Mode : Bit7Mode)
  | spi (k : Nat) (adjust : Nat)
  | sess (k : Nat)
  | codec (itdTypeCode : Byte)
  deriving DecidableEq, Repr

/-- One action of the host (R21): it creates an agent or the codec (R313), discards an agent (R313, R362), or delivers the
bytes of one request or wire input. -/
inductive HostAction where
  | create (c : Creation)
  | discard (unit : UnitClass) (k : Nat)
  | deliver (src : Source) (bytes : Bytes)
  deriving DecidableEq, Repr

/-- Why the machine stops with a fault. The block has no trap (R335): errors are results. -/
inductive Fault where
  /-- Raised by a read transaction of an I2C framer in phase RESPONSE whose `rsp_len` is none, where R241 takes
  `s.rsp_len.value`. R27: no reachable state is so. Safe (log 9). -/
  | responseLengthMissing
  deriving DecidableEq, Repr

/-- Why an action of the host has no step. -/
inductive Refusal where
  /-- An instruction that has no meaning yet; no arm of exec uses it. Safe. -/
  | notModelled (mnemonic : String)
  /-- Raised by step: the delivered bytes are no request of R70 in R71's format, which is refused (R70, R93; I6), or not one
event of R40 (log 13). Safe. -/
  | undecodable (e : DecodeError)
  /-- Raised by the agent operations and by a discard: the host has created no such agent, or has discarded it (R36, R313,
  R364). Safe (log 7). -/
  | noInstance (unit : UnitClass) (k : Nat)
  /-- Raised by step on a creation with a parameter outside its legal set, P5 among them (R36, R151; I7). Safe. -/
  | illegalParameter
  /-- Raised by CI_ENCODE on a record whose overrides hold a duplicate code (R160, D16; I8). Safe. -/
  | illFormedRecord
  /-- Raised by FRAMER_RESET on a unit class byte that is none of 34, 40, 50, 60 (R71). Safe (log 15). -/
  | unknownUnitClass (b : Byte)
  deriving DecidableEq, Repr

/-- The whole state. Slot k of a class's list is the agent of index k, none where the host has created none or has
discarded it; the agents there are make P7 (R6, R343; log 6). -/
structure State where
  /-- P5 `ITD_TYPE_CODE` of the Client-Info Codec there is: given when the host creates it, read-only after (R9, R36, R151;
  log 17). -/
  itdTypeCode : Byte
  /-- `SER[k]` (R24). -/
  ser : List (Option SerFramer)
  /-- `I2C[k]` (R26). -/
  i2c : List (Option I2cFramer)
  /-- `SPI[k]` (R28). -/
  spi : List (Option SpiFramer)
  /-- `SESS[k]` (R29). -/
  sess : List (Option SessionUnit)
  /-- The host's actions not yet taken, oldest first. The MODEL's own field (log 1). -/
  pending : List HostAction
  /-- The result port: the last reply emitted (R13, R30). R13 speaks of each unit's result port; that all units share this
one, so that a step of one unit replaces the reply another showed last, is the model's choice: DESIGN CHOICE (log 22). What
it holds between steps and at reset: DESIGN CHOICE (log 8). -/
  reply : Reply
  deriving DecidableEq, Repr

/-- A serial framer with the given parameters in its reset state (R39). -/
def SerFramer.reset (dir : Dir) (cap : Option Nat) : SerFramer := ⟨dir, cap, .idle, []⟩

/-- An I2C framer with the given parameters in its reset state (R39). -/
def I2cFramer.reset (adjust : Nat) (bit7Mode : Bit7Mode) : I2cFramer := ⟨adjust, bit7Mode, .command, none⟩

/-- An SPI framer with the given parameter in its reset state (R39). -/
def SpiFramer.reset (adjust : Nat) : SpiFramer := ⟨adjust, none⟩

/-- A session unit in its reset state (R39). -/
def SessionUnit.reset : SessionUnit := ⟨none⟩

/-- The machine right after reset: every agent in the state of R39, every parameter at its default. Which agents there
are (P7) and each `SER_DIR` (P1) the spec leaves to the host: DESIGN CHOICE, unsafe (log 5): SER[0] = CMD,
SER[1] = RSP, and one agent of each other class. Nothing is pending and nothing has been emitted (log 1, 8). -/
def State.reset : State where
  itdTypeCode := Config.itdTypeCode
  ser := [some (SerFramer.reset .cmd Config.frameBufCap), some (SerFramer.reset .rsp Config.frameBufCap)]
  i2c := [some (I2cFramer.reset Config.i2cRspLenAdjust .ignore)]
  spi := [some (SpiFramer.reset Config.spiRspLenAdjust)]
  sess := [some SessionUnit.reset]
  pending := []
  reply := .result .none

end Sys2Proof.Machine
end

