-- ==== Sys2Proof/Machine/Ops.lean ====
section
/-! DEFINITION. The named operations over the state: the result port, one agent's read and write, one agent's step, and the
creation and the discarding of an agent. The block takes no exception and returns from none (60_exceptions.md R335): an error is a value of
the result port, so `emit` is all there is of it. -/

namespace Sys2Proof.Machine

/-- What a meaning gives. -/
abbrev Outcome := Host.Outcome State Fault Refusal

/-- `emit r` (R13): the reply appears on the result port, which all units share: DESIGN CHOICE (log 22). -/
def State.emit (s : State) (r : Reply) : State := { s with reply := r }

/-- Take the oldest action off the host's queue. -/
def State.withPending (s : State) (p : List HostAction) : State := { s with pending := p }

/-- `SER[k]`, if the host has created it. -/
def State.serAt (s : State) (k : Byte) : Option SerFramer := s.ser[k.toNat]?.join
/-- `I2C[k]`, if the host has created it. -/
def State.i2cAt (s : State) (k : Byte) : Option I2cFramer := s.i2c[k.toNat]?.join
/-- `SPI[k]`, if the host has created it. -/
def State.spiAt (s : State) (k : Byte) : Option SpiFramer := s.spi[k.toNat]?.join
/-- `SESS[k]`, if the host has created it. -/
def State.sessAt (s : State) (k : Byte) : Option SessionUnit := s.sess[k.toNat]?.join

/-- Write `SER[k]`, and nothing else. -/
def State.setSer (s : State) (k : Byte) (u : SerFramer) : State := { s with ser := s.ser.set k.toNat (some u) }
/-- Write `I2C[k]`, and nothing else. -/
def State.setI2c (s : State) (k : Byte) (u : I2cFramer) : State := { s with i2c := s.i2c.set k.toNat (some u) }
/-- Write `SPI[k]`, and nothing else. -/
def State.setSpi (s : State) (k : Byte) (u : SpiFramer) : State := { s with spi := s.spi.set k.toNat (some u) }
/-- Write `SESS[k]`, and nothing else. -/
def State.setSess (s : State) (k : Byte) (u : SessionUnit) : State := { s with sess := s.sess.set k.toNat (some u) }

/-- A pure operation answers with its result and has no side effect (R57). -/
def answer (s : State) (r : Result) : Outcome := .next (s.emit (.result r))

/-- One atomic step of `SER[k]` (R56): the new state of that agent, and one result. -/
def stepSer (s : State) (k : Byte) (f : SerFramer → SerFramer × Result) : Outcome :=
  match s.serAt k with
  | none => .refused (.noInstance .ser k.toNat)
  | some u => .next ((s.setSer k (f u).1).emit (.result (f u).2))

/-- One atomic step of `I2C[k]`; none is the one case R27 rules out. -/
def stepI2c (s : State) (k : Byte) (f : I2cFramer → Option (I2cFramer × Result)) : Outcome :=
  match s.i2cAt k with
  | none => .refused (.noInstance .i2c k.toNat)
  | some u =>
    match f u with
    | none => .fault .responseLengthMissing
    | some (u', r) => .next ((s.setI2c k u').emit (.result r))

/-- One atomic step of `SPI[k]`. -/
def stepSpi (s : State) (k : Byte) (f : SpiFramer → SpiFramer × Result) : Outcome :=
  match s.spiAt k with
  | none => .refused (.noInstance .spi k.toNat)
  | some u => .next ((s.setSpi k (f u).1).emit (.result (f u).2))

/-- One atomic step of `SESS[k]`, whose reply is a pair (R30, R311). -/
def stepSess (s : State) (k : Byte) (f : SessionUnit → SessionUnit × Reply) : Outcome :=
  match s.sessAt k with
  | none => .refused (.noInstance .sess k.toNat)
  | some u => .next ((s.setSess k (f u).1).emit (f u).2)

/-- P2 is a natural number >= 2 or UNBOUNDED (R9). -/
def capLegal (cap : Option Nat) : Bool :=
  match cap with
  | none => true
  | some n => decide (2 ≤ n)

/-- P3 and P6 are 0 or 2 (R9). -/
def adjustLegal (n : Nat) : Bool := n == 0 || n == 2

/-- P4 is IGNORE (R9, R250). -/
def bit7Legal (m : Bit7Mode) : Bool :=
  match m with
  | .ignore => true
  | .variant => false

/-- Every parameter of a creation is in its legal set (R9, R36, R151). -/
def creationLegal (c : Creation) : Bool :=
  match c with
  | .ser _ _ cap => capLegal cap
  | .i2c _ adjust m => adjustLegal adjust && bit7Legal m
  | .spi _ adjust => adjustLegal adjust
  | .sess _ => true
  | .codec t => itdTypeLegal t

/-- Put an agent into slot k of a class, in place of whatever was there; slots below k that the host has not used stay
empty. -/
def putSlot {α : Type} (l : List (Option α)) (k : Nat) (u : α) : List (Option α) :=
  if k < l.length then l.set k (some u) else l ++ List.replicate (k - l.length) none ++ [some u]

/-- The host creates an agent or the codec (R313). An agent starts in the reset state of R39 with the parameters given, at
the index the host gives; an agent that was there is the old instance of R362, whose partial frame is lost. The codec holds
no state but its parameter (R6), so a new one takes the old one's place. A creation with an illegal parameter is refused
(R36, R151). No result is emitted: creation is no request (R374; log 8). -/
def create (s : State) (c : Creation) : Outcome :=
  if creationLegal c then
    match c with
    | .ser k dir cap => .next { s with ser := putSlot s.ser k (SerFramer.reset dir cap) }
    | .i2c k adjust m => .next { s with i2c := putSlot s.i2c k (I2cFramer.reset adjust m) }
    | .spi k adjust => .next { s with spi := putSlot s.spi k (SpiFramer.reset adjust) }
    | .sess k => .next { s with sess := putSlot s.sess k SessionUnit.reset }
    | .codec t => .next { s with itdTypeCode := t }
  else .refused .illegalParameter

/-- The host has created the agent and not discarded it. -/
def hasAgent (s : State) (unit : UnitClass) (k : Nat) : Bool :=
  match unit with
  | .ser => s.ser[k]?.join.isSome
  | .i2c => s.i2c[k]?.join.isSome
  | .spi => s.spi[k]?.join.isSome
  | .sess => s.sess[k]?.join.isSome

/-- The host discards an agent: there is nothing else to release, and its state is lost (R313, R362). -/
def discardAgent (s : State) (unit : UnitClass) (k : Nat) : Outcome :=
  if hasAgent s unit k then
    match unit with
    | .ser => .next { s with ser := s.ser.set k none }
    | .i2c => .next { s with i2c := s.i2c.set k none }
    | .spi => .next { s with spi := s.spi.set k none }
    | .sess => .next { s with sess := s.sess.set k none }
  else .refused (.noInstance unit k)

end Sys2Proof.Machine
end

