-- ==== Sys2Proof/Machine/Checksum.lean ====
section
/-! DEFINITION. The Checksum Engine (40_checksum.md). -/

namespace Sys2Proof.Machine

/-- The little-endian words of a byte sequence; an odd last byte is the low byte of a word whose high byte is the zero
pad (R100, R54). -/
def leWords : Bytes → List U16
  | [] => []
  | [lo] => [le16 lo 0x00]
  | lo :: hi :: rest => le16 lo hi :: leWords rest

/-- The running sum `s` of R101: addition modulo 2^16, the carry out of bit 15 dropped (R105). -/
def wordSum (data : Bytes) : U16 := (leWords data).foldl (fun s w => s + w) 0

/-- CSUM (R101): the complemented sum; there is no plain-sum mode (R107). -/
def csum (data : Bytes) : U16 := ~~~ wordSum data

/-- FRAME_SEAL (R103): the payload, then its checksum, low byte first. -/
def frameSeal (p : Bytes) : Bytes := p ++ le16Bytes (csum p)

/-- FRAME_OPEN (R104): split payload and checksum and validate. -/
def frameOpen (f : Bytes) : Except ErrorKind Bytes :=
  if f.length < 2 then .error (.framingError .tooShort)
  else if csum (slice f 0 (f.length - 2)) = le16At f (f.length - 2) then .ok (slice f 0 (f.length - 2))
  else .error .checksumInvalid

/-- The result of a pure operation that may fail: `VALUE` of the bytes, or the error with phase none (R31). -/
def bytesResult (x : Except ErrorKind Bytes) : Result :=
  match x with
  | .ok b => .value (.bytes b)
  | .error e => .err e .none

/-- CSUM (R101). -/
def execCsum (data : Bytes) (s : State) : Outcome := answer s (.value (.word (csum data)))

/-- CSUM_VERIFY (R102): recompute and compare; a mismatch is the value false. -/
def execCsumVerify (data : Bytes) (c : U16) (s : State) : Outcome :=
  answer s (.value (.flag (decide (csum data = c))))

/-- FRAME_SEAL (R103). -/
def execFrameSeal (p : Bytes) (s : State) : Outcome := answer s (.value (.bytes (frameSeal p)))

/-- FRAME_OPEN (R104). -/
def execFrameOpen (f : Bytes) (s : State) : Outcome := answer s (bytesResult (frameOpen f))

end Sys2Proof.Machine
end

