-- ==== Sys2Proof/Machine/Delay.lean ====
section
/-! DEFINITION. The inter-transaction delay value type (42_client_info.md section 3). -/

namespace Sys2Proof.Machine

/-- The result of a delay operation. -/
def delayResult (x : Except ErrorKind U32) : Result :=
  match x with
  | .ok n => .value (.delay n)
  | .error e => .err e .none

/-- ITD_FROM_NS (R163): every count up to 0xFFFFFFFF ns is legal (90_conflicts.md C5). -/
def itdFromNs (n : Nat) : Except ErrorKind U32 :=
  if n > 0xFFFFFFFF then .error (.delayOutOfRange .tooLarge) else .ok (BitVec.ofNat 32 n)

/-- ITD_DECODE (R164). -/
def itdDecode (b : Bytes) : Except ErrorKind U32 :=
  match b with
  | [b0, b1, b2, b3] => .ok (le32 b0 b1 b2 b3)
  | _ => .error (.delayOutOfRange .badSize)

/-- ITD_FROM_NS (R163). -/
def execItdFromNs (n : Nat) (s : State) : Outcome := answer s (delayResult (itdFromNs n))

/-- ITD_DECODE (R164). -/
def execItdDecode (b : Bytes) (s : State) : Outcome := answer s (delayResult (itdDecode b))

/-- ITD_ENCODE (R165). -/
def execItdEncode (n : U32) (s : State) : Outcome := answer s (.value (.bytes (le32Bytes n)))

end Sys2Proof.Machine
end

