-- ==== Sys2Proof/Machine/ClientInfo.lean ====
section
/-! DEFINITION. The Client-Info Parameter Codec (42_client_info.md) and the parameter rows of the opcode table
(30_encoding.md R79 to R82). -/

namespace Sys2Proof.Machine

/-- The loop variables of CI_DECODE: ver, buf, deft, ovr, itd (R152). They live inside one operation; the codec holds no
state between operations (R6). -/
structure CiFields where
  ver  : Option Version
  buf  : Option (U16 × Byte)
  deft : Option U16
  ovr  : List (CommandCode × U16)
  itd  : Option U32
  deriving DecidableEq, Repr

/-- The loop variables before the first record (R152). -/
def CiFields.start : CiFields := ⟨none, none, none, [], none⟩

/-- `upsert(ovr, c, t)` (R158): replace in place, or append. -/
def upsert : List (CommandCode × U16) → CommandCode → U16 → List (CommandCode × U16)
  | [], c, t => [(c, t)]
  | (c', t') :: rest, c, t => if c' = c then (c, t) :: rest else (c', t') :: upsert rest c t

/-- The triplets of a COMMAND_TIMEOUTS value (R156): code 0 sets the default, 1..5 an override, another code fails at the
first such triplet (R153). -/
def ciTriplets : Bytes → CiFields → Except CiSub CiFields
  | c :: lo :: hi :: rest, a =>
    if c = 0x00 then ciTriplets rest { a with deft := some (le16 lo hi) }
    else
      match CommandCode.ofByte c with
      | some code => ciTriplets rest { a with ovr := upsert a.ovr code (le16 lo hi) }
      | none => .error .unknownCommand
  | _, a => .ok a

/-- The type byte is one of R151's. -/
def ciKnownType (p5 t : Byte) : Bool :=
  t == versionType || t == bufferInfoType || t == timeoutsType || t == p5

/-- PROTOCOL_VERSION (R154). -/
def ciVersion (v : Bytes) (a : CiFields) : Except CiSub CiFields :=
  match v with
  | [major, minor, patch] => .ok { a with ver := some ⟨major, minor, patch, none⟩ }
  | [major, minor, patch, pre] => .ok { a with ver := some ⟨major, minor, patch, some pre⟩ }
  | _ => .error .badLength

/-- BUFFER_INFO (R155). -/
def ciBufferInfo (v : Bytes) (a : CiFields) : Except CiSub CiFields :=
  match v with
  | [lo, hi, count] => .ok { a with buf := some (le16 lo hi, count) }
  | _ => .error .badLength

/-- COMMAND_TIMEOUTS (R156). -/
def ciTimeouts (v : Bytes) (a : CiFields) : Except CiSub CiFields :=
  if v.length % 3 ≠ 0 then .error .badLength else ciTriplets v a

/-- INTER_TRANSACTION_DELAY (R157). -/
def ciDelay (v : Bytes) (a : CiFields) : Except CiSub CiFields :=
  match v with
  | [b0, b1, b2, b3] => .ok { a with itd := some (le32 b0 b1 b2 b3) }
  | _ => .error .badLength

/-- The `case t` of R152 on a record of a known type: value `v`, whose length is the record's length byte. -/
def ciRecord (t : Byte) (v : Bytes) (a : CiFields) : Except CiSub CiFields :=
  if t = versionType then ciVersion v a
  else if t = bufferInfoType then ciBufferInfo v a
  else if t = timeoutsType then ciTimeouts v a
  else ciDelay v a

/-- The `while` of R152. Every turn takes at least two bytes off the stream, so its length is enough fuel; with no fuel
left and bytes to come, which therefore never happens, the answer is an overrun. -/
def ciLoop (p5 : Byte) : Nat → Bytes → CiFields → Except CiSub CiFields
  | _, [], a => .ok a
  | 0, _ :: _, _ => .error .overrun
  | fuel + 1, t :: rest, a =>
    if ciKnownType p5 t then
      match rest with
      | [] => .error .overrun
      | l :: body =>
        if l.toNat > body.length then .error .overrun
        else
          match ciRecord t (body.take l.toNat) a with
          | .ok a' => ciLoop p5 fuel (body.drop l.toNat) a'
          | .error e => .error e
    else .error .unknownType

/-- The mandatory fields, in the order version, buffer info, default timeout (R153, R159). -/
def ciFinish (a : CiFields) : Except CiSub ClientInfo :=
  match a.ver with
  | none => .error .missingVersion
  | some ver =>
    match a.buf with
    | none => .error .missingBufferInfo
    | some (size, count) =>
      match a.deft with
      | none => .error .missingDefaultTimeout
      | some deft => .ok ⟨ver, count, size, deft, a.ovr, a.itd⟩

/-- CI_DECODE (R152) with P5 = `p5`. -/
def ciDecode (p5 : Byte) (stream : Bytes) : Except CiSub ClientInfo :=
  match ciLoop p5 stream.length stream CiFields.start with
  | .ok a => ciFinish a
  | .error e => .error e

/-- The result of CI_DECODE. -/
def ciResult (x : Except CiSub ClientInfo) : Result :=
  match x with
  | .ok ci => .value (.info ci)
  | .error e => .err (.clientInfoError e) .none

/-- The PROTOCOL_VERSION record CI_ENCODE emits (R160). -/
def ciVersionRecord (v : Version) : Bytes :=
  match v.pre with
  | none => [versionType, 0x03, v.major, v.minor, v.patch]
  | some pre => [versionType, 0x04, v.major, v.minor, v.patch, pre]

/-- CI_ENCODE (R160): BUFFER_INFO, PROTOCOL_VERSION, COMMAND_TIMEOUTS with the default first, then the delay if present
(R161). -/
def ciEncode (p5 : Byte) (ci : ClientInfo) : Bytes :=
  [bufferInfoType, 0x03] ++ le16Bytes ci.bufferSize ++ [ci.bufferCount] ++
    ciVersionRecord ci.version ++
    [timeoutsType, BitVec.ofNat 8 (3 * (1 + ci.overrides.length)), 0x00] ++ le16Bytes ci.defaultTimeout ++
    ci.overrides.flatMap (fun p => p.1.code :: le16Bytes p.2) ++
    match ci.itd with
    | none => []
    | some n => [p5, 0x04] ++ le32Bytes n

/-- The overrides of CI_SET_DEFAULT_TIMEOUTS (R162): each missing command is appended, in command-code order. -/
def fillOverrides (deft : U16) (ovr : List (CommandCode × U16)) : List (CommandCode × U16) :=
  CommandCode.all.foldl
    (fun o c => if c ∈ o.map Prod.fst then o else o ++ [(c, deft)]) ovr

/-- CI_SET_DEFAULT_TIMEOUTS (R162). -/
def ciSetDefaultTimeouts (ci : ClientInfo) : ClientInfo :=
  { ci with overrides := fillOverrides ci.defaultTimeout ci.overrides }

/-- CI_DECODE (R152). -/
def execCiDecode (stream : Bytes) (s : State) : Outcome := answer s (ciResult (ciDecode s.itdTypeCode stream))

/-- CI_ENCODE (R160): a record with a duplicate override code is refused, "the model gives CI_ENCODE no meaning on it". -/
def execCiEncode (ci : ClientInfo) (s : State) : Outcome :=
  if ci.wf then answer s (.value (.bytes (ciEncode s.itdTypeCode ci))) else .refused .illFormedRecord

/-- CI_SET_DEFAULT_TIMEOUTS (R162). On a record with a repeated code, which R34 says is no ClientInfo value, the
pseudocode still has an effect and is followed. DESIGN CHOICE (log 14). -/
def execCiSetDefaultTimeouts (ci : ClientInfo) (s : State) : Outcome :=
  answer s (.value (.info (ciSetDefaultTimeouts ci)))

/-! ## Parameter rows: a stream whose first record has this type reaches CI_DECODE (log 3) -/

/-- A parameter stream that begins with a record of type `t`, decoded by R152. -/
def streamInput (t len : Byte) (body : Bytes) (s : State) : Outcome :=
  answer s (ciResult (ciDecode s.itdTypeCode (t :: len :: body)))

/-- TLV.PROTOCOL_VERSION: type 0x01 (R80, R154). -/
def execTlvProtocolVersion (len : Byte) (body : Bytes) (s : State) : Outcome := streamInput versionType len body s

/-- TLV.BUFFER_INFO: type 0x02 (R80, R155). -/
def execTlvBufferInfo (len : Byte) (body : Bytes) (s : State) : Outcome := streamInput bufferInfoType len body s

/-- TLV.COMMAND_TIMEOUTS: type 0x03 (R80, R156). -/
def execTlvCommandTimeouts (len : Byte) (body : Bytes) (s : State) : Outcome := streamInput timeoutsType len body s

/-- TLV.INTER_TRANSACTION_DELAY: type P5, default 0x04 (R80, R151, R157). -/
def execTlvInterTransactionDelay (len : Byte) (body : Bytes) (s : State) : Outcome :=
  streamInput s.itdTypeCode len body s

end Sys2Proof.Machine
end

