-- ==== Sys2Proof/Machine/Packet.lean ====
section
/-! DEFINITION. The Packet Codec (41_packet_codec.md) and the header rows of the opcode table (30_encoding.md R72 to R76). -/

namespace Sys2Proof.Machine

/-- CMD_DECODE (R123): too short first, then the code check; reserved bits are ignored (R78). -/
def cmdDecode (b : Bytes) : Except ErrorKind CommandPacket :=
  match b with
  | b0 :: b1 :: data =>
    match CommandCode.ofByte b1 with
    | some c => .ok ⟨seqField b0, syncField b0, c, data⟩
    | none => .error .commandNotSupported
  | _ => .error .packetTooShort

/-- STS_DECODE (R137). -/
def stsDecode (b : Bytes) : Except ErrorKind StatusPacket :=
  match b with
  | b0 :: b1 :: data =>
    match StatusCode.ofByte b1 with
    | some c => .ok ⟨seqField b0, resendField b0, c, data⟩
    | none => .error .statusInvalid
  | _ => .error .packetTooShort

/-- `CMD(..)`, or the error with the phase it is stamped with (`tag` of R240; none for a pure operation). -/
def cmdResult (x : Except ErrorKind CommandPacket) (ph : ErrPhase) : Result :=
  match x with
  | .ok p => .cmd p
  | .error e => .err e ph

/-- `STS(..)`, or the error with its phase. -/
def stsResult (x : Except ErrorKind StatusPacket) (ph : ErrPhase) : Result :=
  match x with
  | .ok p => .sts p
  | .error e => .err e ph

/-- CMD_ENCODE (R130): the sequence check first, then the code check; bits 6:5 are written 0. -/
def cmdEncode (seq : Byte) (sync : Bool) (cmd : Byte) (data : Bytes) : Except ErrorKind Bytes :=
  if seq.toNat > 31 then .error .sequenceNumberOutOfRange
  else
    match CommandCode.ofByte cmd with
    | some _ => .ok (flagShifted sync 7 seq :: cmd :: data)
    | none => .error .commandNotSupported

/-- STS_ENCODE (R141): bits 7 and 5 are written 0. -/
def stsEncode (seq : Byte) (resend : Bool) (status : Byte) (data : Bytes) : Except ErrorKind Bytes :=
  if seq.toNat > 31 then .error .sequenceNumberOutOfRange
  else
    match StatusCode.ofByte status with
    | some _ => .ok (flagShifted resend 6 seq :: status :: data)
    | none => .error .statusInvalid

/-- CMD_DECODE (R123). -/
def execCmdDecode (b : Bytes) (s : State) : Outcome := answer s (cmdResult (cmdDecode b) .none)

/-- CMD_ENCODE (R130). -/
def execCmdEncode (seq : Byte) (sync : Bool) (cmd : Byte) (data : Bytes) (s : State) : Outcome :=
  answer s (bytesResult (cmdEncode seq sync cmd data))

/-- STS_DECODE (R137). -/
def execStsDecode (b : Bytes) (s : State) : Outcome := answer s (stsResult (stsDecode b) .none)

/-- STS_ENCODE (R141). -/
def execStsEncode (seq : Byte) (resend : Bool) (status : Byte) (data : Bytes) (s : State) : Outcome :=
  answer s (bytesResult (stsEncode seq resend status data))

/-! ## Header rows: the packet that begins with this header reaches its decoder (log 3) -/

/-- A Command packet of code `c`, decoded by R123. -/
def commandInput (c : Byte) (sync : Bool) (rsv : BitVec 2) (seq : BitVec 5) (data : Bytes) : Result :=
  cmdResult (cmdDecode (commandByte0 sync rsv seq :: c :: data)) .none

/-- A Status packet of code `c`, decoded by R137. -/
def statusInput (c : Byte) (r7 resend r5 : Bool) (seq : BitVec 5) (data : Bytes) : Result :=
  stsResult (stsDecode (statusByte0 r7 resend r5 seq :: c :: data)) .none

/-- CMD.GET_CLIENT_INFO: code 0x01 (R75, R123). -/
def execCmdGetClientInfo (sync : Bool) (rsv : BitVec 2) (seq : BitVec 5) (data : Bytes) (s : State) : Outcome :=
  answer s (commandInput 0x01 sync rsv seq data)

/-- CMD.START_TRANSFER: code 0x02 (R75, R123). -/
def execCmdStartTransfer (sync : Bool) (rsv : BitVec 2) (seq : BitVec 5) (data : Bytes) (s : State) : Outcome :=
  answer s (commandInput 0x02 sync rsv seq data)

/-- CMD.WRITE_CHUNK: code 0x03 (R75, R123). -/
def execCmdWriteChunk (sync : Bool) (rsv : BitVec 2) (seq : BitVec 5) (data : Bytes) (s : State) : Outcome :=
  answer s (commandInput 0x03 sync rsv seq data)

/-- CMD.GET_IMAGE_STATE: code 0x04 (R75, R123). -/
def execCmdGetImageState (sync : Bool) (rsv : BitVec 2) (seq : BitVec 5) (data : Bytes) (s : State) : Outcome :=
  answer s (commandInput 0x04 sync rsv seq data)

/-- CMD.END_TRANSFER: code 0x05 (R75, R123). -/
def execCmdEndTransfer (sync : Bool) (rsv : BitVec 2) (seq : BitVec 5) (data : Bytes) (s : State) : Outcome :=
  answer s (commandInput 0x05 sync rsv seq data)

/-- STS.SUCCESS: code 0x01 (R76, R137). -/
def execStsSuccess (r7 resend r5 : Bool) (seq : BitVec 5) (data : Bytes) (s : State) : Outcome :=
  answer s (statusInput 0x01 r7 resend r5 seq data)

/-- STS.NOT_SUPPORTED: code 0x02 (R76, R137). -/
def execStsNotSupported (r7 resend r5 : Bool) (seq : BitVec 5) (data : Bytes) (s : State) : Outcome :=
  answer s (statusInput 0x02 r7 resend r5 seq data)

/-- STS.NOT_AUTHORIZED: code 0x03 (R76, R137). -/
def execStsNotAuthorized (r7 resend r5 : Bool) (seq : BitVec 5) (data : Bytes) (s : State) : Outcome :=
  answer s (statusInput 0x03 r7 resend r5 seq data)

/-- STS.PACKET_TRANSPORT_FAILURE: code 0x04 (R76, R137). -/
def execStsPacketTransportFailure (r7 resend r5 : Bool) (seq : BitVec 5) (data : Bytes) (s : State) : Outcome :=
  answer s (statusInput 0x04 r7 resend r5 seq data)

/-- STS.ABORT_FILE_TRANSFER: code 0x05 (R76, R137). -/
def execStsAbortFileTransfer (r7 resend r5 : Bool) (seq : BitVec 5) (data : Bytes) (s : State) : Outcome :=
  answer s (statusInput 0x05 r7 resend r5 seq data)

end Sys2Proof.Machine
end

