-- ==== Sys2Proof/Machine/I2c.lean ====
section
/-! DEFINITION. The I2C framer (44_i2c_framer.md) and the status-bit rows of the opcode table (30_encoding.md R87). -/

namespace Sys2Proof.Machine

/-- A write transaction, in any phase (R242): a valid checksum starts the cycle, whatever the packet decoder then says. -/
def i2cWrite (data : Bytes) (u : I2cFramer) : I2cFramer × Result :=
  match frameOpen data with
  | .error e => (u, .err e (.i2c u.phase))
  | .ok p => ({ u with phase := .responseStatus, rspLen := none }, cmdResult (cmdDecode p) (.i2c u.phase))

/-- A response-status read (R243): byte 0 is the status byte; only RSP_READY in RESPONSE_STATUS moves the phase. -/
def i2cStatusRead (data : Bytes) (u : I2cFramer) : I2cFramer × Result :=
  match data with
  | [] => (u, .err (.framingError .tooShort) (.i2c u.phase))
  | st :: _ =>
    (if u.phase = .responseStatus ∧ (PollStatus.mk st).rspReady then { u with phase := .responseLength } else u,
      .poll ⟨st⟩)

/-- A response-length read (R244): the first four bytes are `[length:2][checksum:2]`. -/
def i2cLengthRead (data : Bytes) (u : I2cFramer) : I2cFramer × Result :=
  if data.length < 4 then (u, .err (.framingError .tooShort) (.i2c u.phase))
  else
    match frameOpen (slice data 0 4) with
    | .error e => (u, .err e (.i2c u.phase))
    | .ok p => ({ u with rspLen := some (le16At p 0), phase := .response }, .len (le16At p 0))

/-- A response read of a frame of `n` bytes (R245): surplus bytes are ignored. -/
def i2cResponseRead (n : Nat) (data : Bytes) (u : I2cFramer) : I2cFramer × Result :=
  if data.length < n then (u, .err (.framingError .tooShort) (.i2c u.phase))
  else
    match frameOpen (slice data 0 n) with
    | .error e => (u, .err e (.i2c u.phase))
    | .ok p => ({ u with phase := .command, rspLen := none }, stsResult (stsDecode p) (.i2c u.phase))

/-- A read transaction by phase (R241). None stands for a RESPONSE phase without a response length (R27; log 9). -/
def i2cRead (data : Bytes) (u : I2cFramer) : Option (I2cFramer × Result) :=
  match u.phase with
  | .command => some (i2cStatusRead data u)
  | .responseStatus => some (i2cStatusRead data u)
  | .responseLength => some (i2cLengthRead data u)
  | .response =>
    match u.rspLen with
    | some l => some (i2cResponseRead (l.toNat + u.adjust) data u)
    | none => none

/-- I2C_TXN (R241): one step of an I2C framer on one transaction. The address is compared with nothing (R249). -/
def i2cTxn (rw : Rw) (data : Bytes) (u : I2cFramer) : Option (I2cFramer × Result) :=
  match rw with
  | .write => some (i2cWrite data u)
  | .read => i2cRead data u

/-- I2C_TXN (R241). `addr` is carried and ignored (R249). -/
def execI2cTxn (k : Byte) (rw : Rw) (_addr : BitVec 7) (data : Bytes) (s : State) : Outcome :=
  stepI2c s k (i2cTxn rw data)

/-! ## Status-bit rows: a read whose first byte has this bit set reaches the framer (log 3) -/

/-- I2C.CMD_READY: bit 0 is reported in POLL; no transition depends on it (R87, R243). -/
def execI2cCmdReady (k : Byte) (hi : BitVec 7) (surplus : Bytes) (s : State) : Outcome :=
  stepI2c s k (i2cTxn .read (statusCmdReady hi :: surplus))

/-- I2C.RSP_READY: bit 1 advances RESPONSE_STATUS to RESPONSE_LENGTH (R87, R243). -/
def execI2cRspReady (k : Byte) (hi : BitVec 6) (lo : BitVec 1) (surplus : Bytes) (s : State) : Outcome :=
  stepI2c s k (i2cTxn .read (statusRspReady hi lo :: surplus))

/-- I2C.BIT7: bit 7 is reported in POLL and has no effect in mode IGNORE (R87, R250). -/
def execI2cBit7 (k : Byte) (lo : BitVec 7) (surplus : Bytes) (s : State) : Outcome :=
  stepI2c s k (i2cTxn .read (statusBit7 lo :: surplus))

end Sys2Proof.Machine
end

