-- ==== Sys2Proof/Machine/Serial.lean ====
section
/-! DEFINITION. The serial framer (43_serial_framer.md) and the serial rows of the opcode table (30_encoding.md R83, R84). -/

namespace Sys2Proof.Machine

/-- The bytes that are escaped: start, end and escape codes (R84). -/
def isSpecial (x : Byte) : Bool := x == startCode || x == endCode || x == escapeCode

/-- The legal second bytes of an escape pair (R202). -/
def isEscaped (y : Byte) : Bool := y == 0xA9 || y == 0x61 || y == 0x33

/-- SER_ESCAPE (R201): a special byte X becomes CC, ~X. -/
def serEscape : Bytes → Bytes
  | [] => []
  | x :: d => if isSpecial x then escapeCode :: (~~~ x) :: serEscape d else x :: serEscape d

/-- Put a byte before what the rest of the body gives. -/
def consOk (x : Byte) (r : Except ErrorKind Bytes) : Except ErrorKind Bytes :=
  match r with
  | .ok b => .ok (x :: b)
  | .error e => .error e

/-- SER_UNESCAPE (R202): FE_BAD_ESCAPE on a dangling escape, an unknown pair, or a bare 56 or 9E (D20). -/
def serUnescape : Bytes → Except ErrorKind Bytes
  | [] => .ok []
  | x :: rest =>
    if x = escapeCode then
      match rest with
      | [] => .error (.framingError .badEscape)
      | y :: rest' =>
        if isEscaped y then consOk (~~~ y) (serUnescape rest') else .error (.framingError .badEscape)
    else if x = startCode ∨ x = endCode then .error (.framingError .badEscape)
    else consOk x (serUnescape rest)

/-- SER_FRAME_ENCODE (R203): sealed, then escaped, then delimited. -/
def serFrameEncode (p : Bytes) : Bytes := [startCode] ++ serEscape (frameSeal p) ++ [endCode]

/-- The decoder `dir` picks (R121, R204). -/
def decodeByDir (dir : Dir) (payload : Bytes) : Result :=
  match dir with
  | .cmd => cmdResult (cmdDecode payload) .none
  | .rsp => stsResult (stsDecode payload) .none

/-- The body between the delimiters: unescape, open, decode; the first error ends it (R204). -/
def serBodyDecode (body : Bytes) (dir : Dir) : Result :=
  match serUnescape body with
  | .error e => .err e .none
  | .ok u =>
    match frameOpen u with
    | .error e => .err e .none
    | .ok payload => decodeByDir dir payload

/-- SER_FRAME_DECODE (R204): start code, then end code, then the body. -/
def serFrameDecode (frame : Bytes) (dir : Dir) : Result :=
  match frame with
  | [] => .err (.framingError .badStart) .none
  | b0 :: rest =>
    if b0 ≠ startCode then .err (.framingError .badStart) .none
    else if rest.getLast? ≠ some endCode then .err (.framingError .badEnd) .none
    else serBodyDecode rest.dropLast dir

/-- The buffer holds `FRAME_BUF_CAP` bytes (R208). -/
def SerFramer.full (u : SerFramer) : Bool :=
  match u.cap with
  | none => false
  | some n => decide (u.buf.length = n)

/-- SER_BYTE (R205): one step of a serial framer on one byte. The frame's result is computed from the buffer as it was
before the step. -/
def serByte (b : Byte) (u : SerFramer) : SerFramer × Result :=
  match u.state with
  | .idle =>
    if b = startCode then ({ u with state := .decoding, buf := [] }, .none) else (u, .none)
  | .decoding =>
    if b = startCode then ({ u with buf := [] }, .none)
    else if b = endCode then
      ({ u with state := .idle, buf := [] }, serFrameDecode ([startCode] ++ u.buf ++ [endCode]) u.dir)
    else if u.full then ({ u with state := .idle, buf := [] }, .err (.framingError .overflow) .none)
    else ({ u with buf := u.buf ++ [b] }, .none)

/-- SER_ESCAPE (R201). -/
def execSerEscape (d : Bytes) (s : State) : Outcome := answer s (.value (.bytes (serEscape d)))

/-- SER_UNESCAPE (R202). -/
def execSerUnescape (e : Bytes) (s : State) : Outcome := answer s (bytesResult (serUnescape e))

/-- SER_FRAME_ENCODE (R203). -/
def execSerFrameEncode (p : Bytes) (s : State) : Outcome := answer s (.value (.bytes (serFrameEncode p)))

/-- SER_FRAME_DECODE (R204). -/
def execSerFrameDecode (frame : Bytes) (dir : Dir) (s : State) : Outcome := answer s (serFrameDecode frame dir)

/-- SER_BYTE (R205). -/
def execSerByte (k : Byte) (b : Byte) (s : State) : Outcome := stepSer s k (serByte b)

/-! ## Serial rows (log 3) -/

/-- SER.START: the start code arrives at `SER[k]` (R206, R207). -/
def execSerStart (k : Byte) (s : State) : Outcome := stepSer s k (serByte startCode)

/-- SER.END: the end code arrives at `SER[k]` (R206, R207). -/
def execSerEnd (k : Byte) (s : State) : Outcome := stepSer s k (serByte endCode)

/-- SER.ESC: a frame body that begins with the escape code is unescaped (R202). -/
def execSerEsc (rest : Bytes) (s : State) : Outcome := answer s (bytesResult (serUnescape (escapeCode :: rest)))

/-- SER.ESC_56: a frame body that begins with CC A9 is unescaped (R84, R202). -/
def execSerEsc56 (rest : Bytes) (s : State) : Outcome :=
  answer s (bytesResult (serUnescape (escapeCode :: 0xA9 :: rest)))

/-- SER.ESC_9E: a frame body that begins with CC 61 is unescaped (R84, R202). -/
def execSerEsc9E (rest : Bytes) (s : State) : Outcome :=
  answer s (bytesResult (serUnescape (escapeCode :: 0x61 :: rest)))

/-- SER.ESC_CC: a frame body that begins with CC 33 is unescaped (R84, R202). -/
def execSerEscCC (rest : Bytes) (s : State) : Outcome :=
  answer s (bytesResult (serUnescape (escapeCode :: 0x33 :: rest)))

end Sys2Proof.Machine
end

