-- ==== Sys2Proof/Machine/Session.lean ====
section
/-! DEFINITION. Session pairing and framer reset (46_session.md). -/

namespace Sys2Proof.Machine

/-- The client-info decode of a Status packet: only a SUCCESS that answers GET_CLIENT_INFO has one (R310). Sequence
numbers and the resend flag are not looked at (R312). -/
def sessionInfo (p5 : Byte) (q : StatusPacket) (u : SessionUnit) : Option Result :=
  if u.lastCmd = some .getClientInfo ∧ q.status = .success then some (ciResult (ciDecode p5 q.data)) else none

/-- SESSION_RESULT (R310): one step of a session unit on one forwarded result. -/
def sessionStep (p5 : Byte) (r : Result) (u : SessionUnit) : SessionUnit × Reply :=
  match r with
  | .cmd p => (⟨some p.cmd⟩, .pair r none)
  | .sts q => (⟨none⟩, .pair r (sessionInfo p5 q u))
  | .none | .poll _ | .len _ | .notReady | .value _ | .err _ _ => (u, .pair r none)

/-- SESSION_RESULT (R310). -/
def execSessionResult (k : Byte) (r : Result) (s : State) : Outcome :=
  stepSess s k (sessionStep s.itdTypeCode r)

/-- FRAMER_RESET on a serial framer: a partial frame is discarded without a result; parameters stay (R314). -/
def resetSer (u : SerFramer) : SerFramer × Result := ({ u with state := .idle, buf := [] }, .none)

/-- FRAMER_RESET on an I2C framer (R314). -/
def resetI2c (u : I2cFramer) : Option (I2cFramer × Result) := some ({ u with phase := .command, rspLen := none }, .none)

/-- FRAMER_RESET on an SPI framer (R314). -/
def resetSpi (u : SpiFramer) : SpiFramer × Result := ({ u with rspLen := none }, .none)

/-- FRAMER_RESET on a session unit (R314): it emits NONE, not a pair. -/
def resetSess (_ : SessionUnit) : SessionUnit × Reply := (⟨none⟩, .result .none)

/-- FRAMER_RESET (R314): the unit class byte names the class (R71). -/
def execFramerReset (unit : Byte) (k : Byte) (s : State) : Outcome :=
  match UnitClass.ofByte unit with
  | some .ser => stepSer s k resetSer
  | some .i2c => stepI2c s k resetI2c
  | some .spi => stepSpi s k resetSpi
  | some .sess => stepSess s k resetSess
  | none => .refused (.unknownUnitClass unit)

end Sys2Proof.Machine
end

