-- ==== Sys2Proof/Machine/Spi.lean ====
section
/-! DEFINITION. The SPI framer (45_spi_framer.md) and the SPI rows of the opcode table (30_encoding.md R88, R89). -/

namespace Sys2Proof.Machine

/-- A WRITE transaction (R282): the sealed Command packet after the first byte of mosi. -/
def spiWrite (frame : Bytes) (u : SpiFramer) : SpiFramer × Result :=
  match frameOpen frame with
  | .error e => (u, .err e .spiWrite)
  | .ok p => ({ u with rspLen := none }, cmdResult (cmdDecode p) .spiWrite)

/-- A LEN reply (R284): `miso[4..8)` is `[length:2][checksum:2]`; bytes past index 7 are ignored. -/
def spiLenReply (miso : Bytes) (u : SpiFramer) : SpiFramer × Result :=
  if miso.length < 8 then (u, .err (.framingError .tooShort) .spiRead)
  else
    match frameOpen (slice miso 4 8) with
    | .error e => (u, .err e .spiRead)
    | .ok p => ({ u with rspLen := some (le16At p 0) }, .len (le16At p 0))

/-- The response frame of a RSP reply, once its bytes are known (R285). -/
def spiResponse (frame : Bytes) (u : SpiFramer) : SpiFramer × Result :=
  match frameOpen frame with
  | .error e => (u, .err e .spiRead)
  | .ok p => ({ u with rspLen := none }, stsResult (stsDecode p) .spiRead)

/-- A RSP reply (R285): the first `L + SPI_RSP_LEN_ADJUST` bytes of the body, or the whole body if no LEN came first. -/
def spiRspReply (body : Bytes) (u : SpiFramer) : SpiFramer × Result :=
  match u.rspLen with
  | some l =>
    if body.length < l.toNat + u.adjust then (u, .err (.framingError .tooShort) .spiRead)
    else spiResponse (slice body 0 (l.toNat + u.adjust)) u
  | none => spiResponse body u

/-- A response query (R283 to R285), by the tag `miso[1..4)`. -/
def spiQuery (miso : Bytes) (u : SpiFramer) : SpiFramer × Result :=
  if miso.length < 4 then (u, .notReady)
  else if slice miso 1 4 = tagLen then spiLenReply miso u
  else if slice miso 1 4 = tagRsp then spiRspReply (miso.drop 4) u
  else (u, .notReady)

/-- SPI_TXN (R281): one step of an SPI framer on one transaction, by the first byte of mosi (R286). -/
def spiTxn (mosi miso : Bytes) (u : SpiFramer) : SpiFramer × Result :=
  match mosi with
  | [] => (u, .err (.framingError .unexpectedPrefix) .none)
  | b :: rest =>
    if b = spiWriteCode then spiWrite rest u
    else if b = spiReadCode then spiQuery miso u
    else (u, .err (.framingError .unexpectedPrefix) .none)

/-- SPI_TXN (R281). -/
def execSpiTxn (k : Byte) (mosi miso : Bytes) (s : State) : Outcome := stepSpi s k (spiTxn mosi miso)

/-! ## SPI rows (log 3) -/

/-- SPI.WRITE: a transaction whose mosi begins with 0x11 (R282). -/
def execSpiWrite (k : Byte) (rest miso : Bytes) (s : State) : Outcome :=
  stepSpi s k (spiTxn (spiWriteCode :: rest) miso)

/-- SPI.READ: a transaction whose mosi begins with 0x55 (R281, R283 to R285). -/
def execSpiRead (k : Byte) (rest miso : Bytes) (s : State) : Outcome :=
  stepSpi s k (spiTxn (spiReadCode :: rest) miso)

/-- SPI.TAG_LEN: a query whose `miso[1..4)` is "LEN" (R284). -/
def execSpiTagLen (k : Byte) (rest : Bytes) (dummy : Byte) (body : Bytes) (s : State) : Outcome :=
  stepSpi s k (spiTxn (spiReadCode :: rest) (dummy :: (tagLen ++ body)))

/-- SPI.TAG_RSP: a query whose `miso[1..4)` is "RSP" (R285). -/
def execSpiTagRsp (k : Byte) (rest : Bytes) (dummy : Byte) (body : Bytes) (s : State) : Outcome :=
  stepSpi s k (spiTxn (spiReadCode :: rest) (dummy :: (tagRsp ++ body)))

end Sys2Proof.Machine
end

