-- ==== Sys2Proof/Machine/Dispatch.lean ====
section
/-! DEFINITION. exec: one arm per instruction, one direct call of its meaning. -/

namespace Sys2Proof.Machine

def exec (i : Instr) (s : State) : Host.Outcome State Fault Refusal :=
  match i with
  -- 40_checksum.md
  | .csum data => Sys2Proof.Machine.execCsum data s
  | .csumVerify data c => Sys2Proof.Machine.execCsumVerify data c s
  | .frameSeal p => Sys2Proof.Machine.execFrameSeal p s
  | .frameOpen f => Sys2Proof.Machine.execFrameOpen f s
  -- 41_packet_codec.md
  | .cmdDecode b => Sys2Proof.Machine.execCmdDecode b s
  | .cmdEncode seq sync cmd data => Sys2Proof.Machine.execCmdEncode seq sync cmd data s
  | .stsDecode b => Sys2Proof.Machine.execStsDecode b s
  | .stsEncode seq resend status data => Sys2Proof.Machine.execStsEncode seq resend status data s
  -- 42_client_info.md
  | .ciDecode stream => Sys2Proof.Machine.execCiDecode stream s
  | .ciEncode ci => Sys2Proof.Machine.execCiEncode ci s
  | .ciSetDefaultTimeouts ci => Sys2Proof.Machine.execCiSetDefaultTimeouts ci s
  | .itdFromNs n => Sys2Proof.Machine.execItdFromNs n s
  | .itdDecode b => Sys2Proof.Machine.execItdDecode b s
  | .itdEncode n => Sys2Proof.Machine.execItdEncode n s
  -- 43_serial_framer.md
  | .serEscape d => Sys2Proof.Machine.execSerEscape d s
  | .serUnescape e => Sys2Proof.Machine.execSerUnescape e s
  | .serFrameEncode p => Sys2Proof.Machine.execSerFrameEncode p s
  | .serFrameDecode frame dir => Sys2Proof.Machine.execSerFrameDecode frame dir s
  | .serByte k b => Sys2Proof.Machine.execSerByte k b s
  -- 44_i2c_framer.md
  | .i2cTxn k rw addr data => Sys2Proof.Machine.execI2cTxn k rw addr data s
  -- 45_spi_framer.md
  | .spiTxn k mosi miso => Sys2Proof.Machine.execSpiTxn k mosi miso s
  -- 46_session.md
  | .sessionResult k r => Sys2Proof.Machine.execSessionResult k r s
  | .framerReset unit k => Sys2Proof.Machine.execFramerReset unit k s
  -- format command_header
  | .cmdGetClientInfo sync rsv seq data => Sys2Proof.Machine.execCmdGetClientInfo sync rsv seq data s
  | .cmdStartTransfer sync rsv seq data => Sys2Proof.Machine.execCmdStartTransfer sync rsv seq data s
  | .cmdWriteChunk sync rsv seq data => Sys2Proof.Machine.execCmdWriteChunk sync rsv seq data s
  | .cmdGetImageState sync rsv seq data => Sys2Proof.Machine.execCmdGetImageState sync rsv seq data s
  | .cmdEndTransfer sync rsv seq data => Sys2Proof.Machine.execCmdEndTransfer sync rsv seq data s
  -- format status_header
  | .stsSuccess r7 resend r5 seq data => Sys2Proof.Machine.execStsSuccess r7 resend r5 seq data s
  | .stsNotSupported r7 resend r5 seq data => Sys2Proof.Machine.execStsNotSupported r7 resend r5 seq data s
  | .stsNotAuthorized r7 resend r5 seq data => Sys2Proof.Machine.execStsNotAuthorized r7 resend r5 seq data s
  | .stsPacketTransportFailure r7 resend r5 seq data => Sys2Proof.Machine.execStsPacketTransportFailure r7 resend r5 seq data s
  | .stsAbortFileTransfer r7 resend r5 seq data => Sys2Proof.Machine.execStsAbortFileTransfer r7 resend r5 seq data s
  -- format tlv_record
  | .tlvProtocolVersion len body => Sys2Proof.Machine.execTlvProtocolVersion len body s
  | .tlvBufferInfo len body => Sys2Proof.Machine.execTlvBufferInfo len body s
  | .tlvCommandTimeouts len body => Sys2Proof.Machine.execTlvCommandTimeouts len body s
  | .tlvInterTransactionDelay len body => Sys2Proof.Machine.execTlvInterTransactionDelay len body s
  -- format serial_code
  | .serStart k => Sys2Proof.Machine.execSerStart k s
  | .serEnd k => Sys2Proof.Machine.execSerEnd k s
  | .serEsc rest => Sys2Proof.Machine.execSerEsc rest s
  -- format serial_escape_pair
  | .serEsc56 rest => Sys2Proof.Machine.execSerEsc56 rest s
  | .serEsc9E rest => Sys2Proof.Machine.execSerEsc9E rest s
  | .serEscCC rest => Sys2Proof.Machine.execSerEscCC rest s
  -- format spi_prefix
  | .spiWrite k rest miso => Sys2Proof.Machine.execSpiWrite k rest miso s
  | .spiRead k rest miso => Sys2Proof.Machine.execSpiRead k rest miso s
  -- format spi_tag
  | .spiTagLen k rest dummy body => Sys2Proof.Machine.execSpiTagLen k rest dummy body s
  | .spiTagRsp k rest dummy body => Sys2Proof.Machine.execSpiTagRsp k rest dummy body s
  -- format i2c_status_bit
  | .i2cCmdReady k hi surplus => Sys2Proof.Machine.execI2cCmdReady k hi surplus s
  | .i2cRspReady k hi lo surplus => Sys2Proof.Machine.execI2cRspReady k hi lo surplus s
  | .i2cBit7 k lo surplus => Sys2Proof.Machine.execI2cBit7 k lo surplus s

end Sys2Proof.Machine
end

