-- ==== Sys2Proof/Machine/Step.lean ====
section
/-! DEFINITION. One step of the machine: it takes the host's oldest action. -/

namespace Sys2Proof.Machine

/-- One step. With no action pending the block does nothing (R345). A creation makes an agent or the codec (R313), a discard
takes an agent away (R313, R362). A delivery is decoded
and executed as one atomic step (R56); bytes that are no request are refused: "A model gives it no step and treats it as
`refuse`" (R93). Actions are taken one at a time, in the order the host gave them (R58, R366). -/
def step (s : State) : Host.Outcome State Fault Refusal :=
  match s.pending with
  | [] => .next s
  | .create c :: rest => create (s.withPending rest) c
  | .discard unit k :: rest => discardAgent (s.withPending rest) unit k
  | .deliver src bs :: rest =>
    match decode s.itdTypeCode src bs with
    | .ok i => exec i (s.withPending rest)
    | .error e => .refused (.undecodable e)

/-- The state whose next step runs the instruction of a table word: it is the host's oldest action (log 1). -/
def State.withFetchWord (s : State) (nbits w : Nat) : State :=
  { s with pending := [.deliver (tableDelivery nbits w).1 (tableDelivery nbits w).2] }

end Sys2Proof.Machine
end

