-- ==== Sys2Proof/Machine/Pseudo.lean ====
section
/-! DEFINITION. The pseudo-operations of 30_encoding.md R92, each only shorthand for its expansion, and the sequence of
replies a list of instructions gives. -/

namespace Sys2Proof.Machine

/-- SER_FEED.k: one SER_BYTE per byte (R92). -/
def serFeed (k : Byte) (bs : Bytes) : List Instr := bs.map fun b => .serByte k b

/-- SER_SEND.k p: SER_FEED of the frame of p (R92). -/
def serSend (k : Byte) (p : Bytes) : List Instr := serFeed k (serFrameEncode p)

/-- I2C_CMD.k a, p: a write of the sealed packet (R92). -/
def i2cCmd (k : Byte) (addr : BitVec 7) (p : Bytes) : List Instr := [.i2cTxn k .write addr (frameSeal p)]

/-- SPI_CMD.k p: a WRITE of the sealed packet, miso zero bytes of the same length (R92). -/
def spiCmd (k : Byte) (p : Bytes) : List Instr :=
  [.spiTxn k (spiWriteCode :: frameSeal p) (List.replicate ((frameSeal p).length + 1) 0x00)]

/-- The state after a list of instructions and the reply of each, if every one gives a next state. -/
def runAll : List Instr → State → Option (State × List Reply)
  | [], s => some (s, [])
  | i :: rest, s =>
    match exec i s with
    | .next t =>
      match runAll rest t with
      | some (u, replies) => some (u, t.reply :: replies)
      | none => none
    | .fault _ => none
    | .refused _ => none

end Sys2Proof.Machine
end

