-- ==== Sys2Proof/Safety.lean ====
section
/-! DEFINITION. What counts as a good state: the parameters are legal (00_scope.md R9) and the invariants the spec states for
reachable states hold (10_state.md R24, R25, R27). -/

namespace Sys2Proof.Machine

/-- R24, R25 for one serial framer, with a legal capacity (R9). -/
abbrev SerFramer.Good (u : SerFramer) : Prop :=
  capLegal u.cap = true ∧ (u.state = .idle → u.buf = []) ∧ startCode ∉ u.buf ∧ endCode ∉ u.buf ∧
    ∀ n ∈ u.cap, u.buf.length ≤ n

/-- R27 for one I2C framer, with legal parameters (R9, R250). -/
abbrev I2cFramer.Good (u : I2cFramer) : Prop :=
  adjustLegal u.adjust = true ∧ bit7Legal u.bit7Mode = true ∧ (u.phase = .response ↔ u.rspLen ≠ none)

/-- A legal parameter for one SPI framer (R9); R28 gives its state no other constraint. -/
abbrev SpiFramer.Good (u : SpiFramer) : Prop := adjustLegal u.adjust = true

/-- Every agent is good and P5 is legal (R9, R151). -/
abbrev State.Good (s : State) : Prop :=
  itdTypeLegal s.itdTypeCode = true ∧ (∀ o ∈ s.ser, ∀ u ∈ o, u.Good) ∧ (∀ o ∈ s.i2c, ∀ u ∈ o, u.Good) ∧
    (∀ o ∈ s.spi, ∀ u ∈ o, u.Good)

/-- The agent an instruction acts on: its class and index; none for a pure operation (R30, R57, R70). -/
def target (i : Instr) : Option (UnitClass × Nat) :=
  match i with
  | .serByte k _ | .serStart k | .serEnd k => some (.ser, k.toNat)
  | .i2cTxn k _ _ _ | .i2cCmdReady k _ _ | .i2cRspReady k _ _ _ | .i2cBit7 k _ _ => some (.i2c, k.toNat)
  | .spiTxn k _ _ | .spiWrite k _ _ | .spiRead k _ _ | .spiTagLen k _ _ _ | .spiTagRsp k _ _ _ => some (.spi, k.toNat)
  | .sessionResult k _ => some (.sess, k.toNat)
  | .framerReset u k => (UnitClass.ofByte u).map fun c => (c, k.toNat)
  | .csum _ | .csumVerify _ _ | .frameSeal _ | .frameOpen _ => none
  | .cmdDecode _ | .cmdEncode _ _ _ _ | .stsDecode _ | .stsEncode _ _ _ _ => none
  | .ciDecode _ | .ciEncode _ | .ciSetDefaultTimeouts _ => none
  | .itdFromNs _ | .itdDecode _ | .itdEncode _ => none
  | .serEscape _ | .serUnescape _ | .serFrameEncode _ | .serFrameDecode _ _ => none
  | .cmdGetClientInfo _ _ _ _ | .cmdStartTransfer _ _ _ _ | .cmdWriteChunk _ _ _ _ => none
  | .cmdGetImageState _ _ _ _ | .cmdEndTransfer _ _ _ _ => none
  | .stsSuccess _ _ _ _ _ | .stsNotSupported _ _ _ _ _ | .stsNotAuthorized _ _ _ _ _ => none
  | .stsPacketTransportFailure _ _ _ _ _ | .stsAbortFileTransfer _ _ _ _ _ => none
  | .tlvProtocolVersion _ _ | .tlvBufferInfo _ _ | .tlvCommandTimeouts _ _ => none
  | .tlvInterTransactionDelay _ _ => none
  | .serEsc _ | .serEsc56 _ | .serEsc9E _ | .serEscCC _ => none

end Sys2Proof.Machine
end

