-- ==== Sys2Proof/Certificates/Slice0/Obligations.lean ====
section
/-! DEFINITION. The statements for the provers. Each docstring names the rule of spec/ it formalises. The helper definitions
under Sys2Proof.Spec write the spec's own formulas once more, independently of the model's functions. -/

namespace Sys2Proof.Spec

/-- Word k of a byte sequence, low byte first; bytes past the end are the zero pad (R53 (a), R100). -/
def wordNat (d : Bytes) (k : Nat) : Nat := (d.getD (2 * k) 0).toNat + 256 * (d.getD (2 * k + 1) 0).toNat

/-- The sum of all words of a byte sequence, on naturals. -/
def totalNat (d : Bytes) : Nat := ∑ k ∈ Finset.range ((d.length + 1) / 2), wordNat d k

/-- `0xFFFF - (Σ w_k mod 2^16)` (R105). -/
def checksumNat (d : Bytes) : Nat := 0xFFFF - totalNat d % 0x10000

/-- A record `[type][length][value]` (R79). -/
def record (p : Byte × Bytes) : Bytes := p.1 :: BitVec.ofNat 8 p.2.length :: p.2

/-- A stream of records, each starting directly after the previous one (R79). -/
def stream (l : List (Byte × Bytes)) : Bytes := l.flatMap record

/-- Every third byte of a COMMAND_TIMEOUTS value is a code 0..5 (R156). -/
def tripletCodesLegal (v : Bytes) : Prop := ∀ j, 3 * j < v.length → (v.getD (3 * j) 0).toNat ≤ 5

/-- A record with a type of R151, a length legal for it (R80) and legal timeout codes (R156). -/
def recordLegal (p5 : Byte) (p : Byte × Bytes) : Prop :=
  (p.1 = 0x01 ∧ (p.2.length = 3 ∨ p.2.length = 4)) ∨
  (p.1 = 0x02 ∧ p.2.length = 3) ∨
  (p.1 = 0x03 ∧ p.2.length % 3 = 0 ∧ p.2.length ≤ 255 ∧ tripletCodesLegal p.2) ∨
  (p.1 = p5 ∧ p.2.length = 4)

/-- The type bytes of R151. -/
def typeKnown (p5 t : Byte) : Prop := t = 0x01 ∨ t = 0x02 ∨ t = 0x03 ∨ t = p5

/-- A length that is legal for no record of the type (R80). -/
def lengthBad (t : Byte) (n : Nat) : Prop :=
  (t = 0x01 ∧ n ≠ 3 ∧ n ≠ 4) ∨ (t = 0x02 ∧ n ≠ 3) ∨ (t = 0x03 ∧ n % 3 ≠ 0) ∨
    (t ≠ 0x01 ∧ t ≠ 0x02 ∧ t ≠ 0x03 ∧ n ≠ 4)

/-- The value bytes of the last record of a type, if there is one (R158). -/
def lastValue (l : List (Byte × Bytes)) (t : Byte) : Option Bytes :=
  ((l.filter fun p => p.1 = t).getLast?).map Prod.snd

/-- The triplets of a COMMAND_TIMEOUTS value: code, and timeout low byte first (R81, R156). -/
def triplets (v : Bytes) : List (Byte × U16) :=
  (List.range (v.length / 3)).map fun j => (v.getD (3 * j) 0, v.getD (3 * j + 2) 0 ++ v.getD (3 * j + 1) 0)

/-- All triplets of a stream of records, in stream order. -/
def streamTriplets (l : List (Byte × Bytes)) : List (Byte × U16) :=
  (l.filter fun p => p.1 = 0x03).flatMap fun p => triplets p.2

/-- The last default timeout of a stream of records, if there is one (R156, R158). -/
def lastDefault (l : List (Byte × Bytes)) : Option U16 :=
  (((streamTriplets l).filter fun p => p.1 = 0x00).getLast?).map Prod.snd

/-- One more triplet (R158): a default is no override; an override of a code that is there is replaced in place, of a new
code appended. -/
def addOverride (o : List (Byte × U16)) (p : Byte × U16) : List (Byte × U16) :=
  if p.1 = 0x00 then o
  else if p.1 ∈ o.map Prod.fst then o.map fun q => if q.1 = p.1 then p else q
  else o ++ [p]

/-- What an instruction's answer must be to have the result `r` and no other effect. -/
def answers (i : Instr) (s : Machine.State) (r : Result) : Prop :=
  Machine.exec i s = .next (s.emit (.result r))

/-- The bytes of a request begin with its operation-select code and its instance index (R70, R71). -/
def selectedBy (op k : Byte) (i : Instr) : Prop := ∀ p5 : Byte, (encode p5 i).take 2 = [op, k]

/-- The framing errors of a pure operation. -/
def framingErr (x : FeSub) : Result := .err (.framingError x) .none

/-- The client-info errors. -/
def infoErr (x : CiSub) : Result := .err (.clientInfoError x) .none

/-- Slot k of a class holds the new agent, and every other agent of the class is as it was. -/
def newAgent {α : Type} (old new : List (Option α)) (k : Nat) (u : α) : Prop :=
  new[k]? = some (some u) ∧ ∀ j, j ≠ k → new[j]?.join = old[j]?.join

/-- The bytes of a wire input decode to an instruction that acts as the unit's operation `j` in every state with that P5. -/
def runsAs (p5 : Byte) (src : Source) (bs : Bytes) (j : Instr) : Prop :=
  ∃ i, decode p5 src bs = .ok i ∧ ∀ s : Machine.State, s.itdTypeCode = p5 → Machine.exec i s = Machine.exec j s

end Sys2Proof.Spec

open Sys2Proof Sys2Proof.Machine Sys2Proof.Spec

/-! ## The machine -/

/-- A step runs the decoded instruction: when the host's oldest action is a delivery whose bytes decode to `i`, the step is
exec of `i` on the state with that action taken off (R56, R58, R71). -/
def Obligations.StepRunsDecodedInstruction : Prop :=
  ∀ (s : State) (src : Source) (bs : Bytes) (rest : List HostAction) (i : Instr),
    s.pending = .deliver src bs :: rest → decode s.itdTypeCode src bs = .ok i →
      step s = exec i { s with pending := rest }

/-- The step on a host action that is no delivery: none pending, the block holds its state (R345); a creation with legal
parameters puts an agent in its reset state at the index the host gives, or makes the codec with the P5 given, any other is
refused (R9, R36, R39, R151, R313, R362). The model's choices: that a creation at an index in use replaces the agent there
(log 6), that the block has one codec, which a new one replaces (log 17), and that the result port keeps its last reply over
an idle step and a creation (log 8). -/
def Obligations.StepCreatesOrHolds : Prop :=
  (∀ s : State, s.pending = [] → step s = .next s) ∧
  (∀ (s : State) (rest : List HostAction) (k : Nat) (dir : Dir) (cap : Option Nat),
    s.pending = .create (.ser k dir cap) :: rest →
      ((∀ n, cap = some n → 2 ≤ n) → ∃ l, step s = .next { s with pending := rest, ser := l } ∧
        newAgent s.ser l k ⟨dir, cap, .idle, []⟩) ∧
      (¬ (∀ n, cap = some n → 2 ≤ n) → step s = .refused .illegalParameter)) ∧
  (∀ (s : State) (rest : List HostAction) (k adjust : Nat) (m : Bit7Mode),
    s.pending = .create (.i2c k adjust m) :: rest →
      ((adjust = 0 ∨ adjust = 2) ∧ m = .ignore → ∃ l, step s = .next { s with pending := rest, i2c := l } ∧
        newAgent s.i2c l k ⟨adjust, m, .command, none⟩) ∧
      (¬ ((adjust = 0 ∨ adjust = 2) ∧ m = .ignore) → step s = .refused .illegalParameter)) ∧
  (∀ (s : State) (rest : List HostAction) (k adjust : Nat),
    s.pending = .create (.spi k adjust) :: rest →
      (adjust = 0 ∨ adjust = 2 → ∃ l, step s = .next { s with pending := rest, spi := l } ∧
        newAgent s.spi l k ⟨adjust, none⟩) ∧
      (¬ (adjust = 0 ∨ adjust = 2) → step s = .refused .illegalParameter)) ∧
  (∀ (s : State) (rest : List HostAction) (k : Nat), s.pending = .create (.sess k) :: rest →
    ∃ l, step s = .next { s with pending := rest, sess := l } ∧ newAgent s.sess l k ⟨none⟩) ∧
  (∀ (s : State) (rest : List HostAction) (p5 : Byte), s.pending = .create (.codec p5) :: rest →
    (p5 ≠ 0x01 ∧ p5 ≠ 0x02 ∧ p5 ≠ 0x03 → step s = .next { s with pending := rest, itdTypeCode := p5 }) ∧
    (p5 = 0x01 ∨ p5 = 0x02 ∨ p5 = 0x03 → step s = .refused .illegalParameter))

/-- A request with an operation-select code outside the table of R70 is refused (R93). -/
def Obligations.ReservedOperationRefused : Prop :=
  ∀ (s : State) (op : Byte) (operands : Bytes) (rest : List HostAction),
    op.toNat ∉ [0x01, 0x02, 0x03, 0x04, 0x10, 0x11, 0x12, 0x13, 0x20, 0x21, 0x22, 0x28, 0x29, 0x2A,
      0x30, 0x31, 0x32, 0x33, 0x34, 0x40, 0x50, 0x60, 0x70] →
    s.pending = .deliver .request (op :: operands) :: rest →
      step s = .refused (.undecodable (.reservedOperation op))

/-- Decode and encode agree: every instruction, with every operand, is read back from the bytes written for it.
The model's: operand layouts (log 2), what a row's code stands for (log 3), the sources (log 4); the SPI tag bytes are PRESUMED
(log 11). -/
def Obligations.DecodeEncodeAgree : Prop :=
  ∀ (p5 : Byte) (i : Instr), itdTypeLegal p5 = true → decode p5 (sourceOf i) (encode p5 i) = .ok i

/-- Words written out from the spec's encodings, one or more of each format, decode to what they stand for, and a reserved
code is rejected (R70, R72, R73, R80, R83, R84, R87, R88, R93). The model's: operand layouts (log 2), what a row's code stands
for (log 3), the sources (log 4); the tag bytes 4C 45 4E are PRESUMED (log 11). -/
def Obligations.SampleWordsDecode : Prop :=
  decode 0x04 .request [0x01, 0x00, 0x02, 0x03, 0x01] = .ok (.csum [0x03, 0x01]) ∧
  decode 0x04 .request [0x34, 0x01, 0x9E] = .ok (.serByte 1 0x9E) ∧
  decode 0x04 .request [0x70, 0x00, 0x40] = .ok (.framerReset 0x40 0) ∧
  decode 0x04 .commandPacket [0x9F, 0x05, 0xAA] = .ok (.cmdEndTransfer true 0 31 [0xAA]) ∧
  decode 0x04 .statusPacket [0x43, 0x01] = .ok (.stsSuccess false true false 3 []) ∧
  decode 0x04 .parameterStream [0x04, 0x04, 0x40, 0x42, 0x0F, 0x00] =
    .ok (.tlvInterTransactionDelay 4 [0x40, 0x42, 0x0F, 0x00]) ∧
  decode 0x04 (.serialLine 0) [0x56] = .ok (.serStart 0) ∧
  decode 0x04 .escapePair [0xCC, 0x61] = .ok (.serEsc9E []) ∧
  decode 0x04 (.spiOutbound 0) [0x55, 0x00, 0x02, 0xFF, 0xFF] = .ok (.spiRead 0 [] [0xFF, 0xFF]) ∧
  decode 0x04 (.spiReply 0) [0x4C, 0x45, 0x4E, 0x00, 0x00, 0x00] = .ok (.spiTagLen 0 [] 0 []) ∧
  decode 0x04 (.i2cStatus 0 .rspReady) [0x83] = .ok (.i2cRspReady 0 0x20 1 []) ∧
  decode 0x04 .request [0x71, 0x00] = .error (.reservedOperation 0x71)

/-! ## Invariants, frames, independence -/

/-- Every step keeps the invariants of reachable states: R24's capacity bound, R25, R27, legal parameters (R9). -/
def Obligations.StepKeepsGoodState : Prop :=
  ∀ s t : State, s.Good → step s = .next t → t.Good

/-- The state after reset: every agent as R39 says, P2 to P6 at their defaults of R9, and Good. Which agents there are is the
model's choice (log 5), and the default of P5 is PRESUMED (log 10). -/
def Obligations.ResetStateIsGood : Prop :=
  State.reset.Good ∧
  (∀ u, some u ∈ State.reset.ser → u.state = .idle ∧ u.buf = [] ∧ u.cap = none) ∧
  (∀ u, some u ∈ State.reset.i2c → u.phase = .command ∧ u.rspLen = none ∧ u.adjust = 0 ∧ u.bit7Mode = .ignore) ∧
  (∀ u, some u ∈ State.reset.spi → u.rspLen = none ∧ u.adjust = 0) ∧
  (∀ u, some u ∈ State.reset.sess → u.lastCmd = none) ∧ State.reset.itdTypeCode = 0x04

/-- No error is fatal: from a good state no step is a fault (R333, R335). -/
def Obligations.GoodStateNeverFaults : Prop :=
  ∀ (s : State) (e : Fault), s.Good → step s ≠ .fault e

/-- Parameters are read-only (R36, R362): P5 stays over every step but the creation of a codec, and every agent keeps its index
and its parameters over every step but a creation at its index and its own discard. -/
def Obligations.StepKeepsParameters : Prop :=
  ∀ s t : State, step s = .next t →
    ((∀ p5, s.pending.head? ≠ some (.create (.codec p5))) → t.itdTypeCode = s.itdTypeCode) ∧
    (∀ (k : Nat) (u : SerFramer), s.ser[k]? = some (some u) →
      (∀ dir cap, s.pending.head? ≠ some (.create (.ser k dir cap))) → s.pending.head? ≠ some (.discard .ser k) →
      ∃ v, t.ser[k]? = some (some v) ∧ v.dir = u.dir ∧ v.cap = u.cap) ∧
    (∀ (k : Nat) (u : I2cFramer), s.i2c[k]? = some (some u) →
      (∀ adjust m, s.pending.head? ≠ some (.create (.i2c k adjust m))) → s.pending.head? ≠ some (.discard .i2c k) →
      ∃ v, t.i2c[k]? = some (some v) ∧ v.adjust = u.adjust ∧ v.bit7Mode = u.bit7Mode) ∧
    (∀ (k : Nat) (u : SpiFramer), s.spi[k]? = some (some u) →
      (∀ adjust, s.pending.head? ≠ some (.create (.spi k adjust))) → s.pending.head? ≠ some (.discard .spi k) →
      ∃ v, t.spi[k]? = some (some v) ∧ v.adjust = u.adjust) ∧
    (∀ (k : Nat) (u : SessionUnit), s.sess[k]? = some (some u) →
      s.pending.head? ≠ some (.create (.sess k)) → s.pending.head? ≠ some (.discard .sess k) →
      ∃ v, t.sess[k]? = some (some v))

/-- The frame of every instruction: it changes the result port and the one agent it names, and nothing else; a pure
operation changes the result port only (R20, R57, R58). That all units share one port is the model's choice (log 22). -/
def Obligations.ExecTouchesOnlyItsAgent : Prop :=
  ∀ (i : Instr) (s t : State), exec i s = .next t →
    t.itdTypeCode = s.itdTypeCode ∧ t.pending = s.pending ∧
    t.ser.length = s.ser.length ∧ t.i2c.length = s.i2c.length ∧
    t.spi.length = s.spi.length ∧ t.sess.length = s.sess.length ∧
    (∀ k, target i ≠ some (.ser, k) → t.ser[k]? = s.ser[k]?) ∧
    (∀ k, target i ≠ some (.i2c, k) → t.i2c[k]? = s.i2c[k]?) ∧
    (∀ k, target i ≠ some (.spi, k) → t.spi[k]? = s.spi[k]?) ∧
    (∀ k, target i ≠ some (.sess, k) → t.sess[k]? = s.sess[k]?) ∧
    (target i = none → t = s.emit t.reply)

/-- Steps of different agents commute (R58): in either order each gives its own reply and the agents end the same.
That the later reply stands on a port all units share is the model's choice (log 22). -/
def Obligations.StepsOfDifferentAgentsCommute : Prop :=
  ∀ (i j : Instr) (s a ab : State), (target i ≠ target j ∨ target i = none) →
    exec i s = .next a → exec j a = .next ab →
    ∃ b ba, exec j s = .next b ∧ exec i b = .next ba ∧ ba = ab.emit a.reply ∧ b.reply = ab.reply ∧
      ba.reply = a.reply

/-- A pure operation repeated, whatever the other agents did in between, gives the same result (R57): its reply depends
on its operands and on P5 alone. -/
def Obligations.PureOperationRepeats : Prop :=
  ∀ (i : Instr) (s t s' : State), target i = none → exec i s = .next t → s'.itdTypeCode = s.itdTypeCode →
    exec i s' = .next (s'.emit t.reply)

/-! ## Checksum Engine -/

/-- CSUM, CSUM_VERIFY and FRAME_SEAL (R101, R102, R103, R105), for every byte sequence: the checksum is 0xFFFF minus the
word sum modulo 2^16; verifying compares with it; sealing appends it, low byte first. -/
def Obligations.ChecksumResults : Prop :=
  ∀ (d : Bytes) (c : U16) (s : State),
    selectedBy 0x01 0x00 (.csum d) ∧ selectedBy 0x02 0x00 (.csumVerify d c) ∧ selectedBy 0x03 0x00 (.frameSeal d) ∧
    answers (.csum d) s (.value (.word (BitVec.ofNat 16 (checksumNat d)))) ∧
    answers (.csumVerify d c) s (.value (.flag (decide (c.toNat = checksumNat d)))) ∧
    answers (.frameSeal d) s
      (.value (.bytes (d ++ [BitVec.ofNat 8 (checksumNat d % 256), BitVec.ofNat 8 (checksumNat d / 256)])))

/-- FRAME_OPEN (R104), on every frame: too short; or payload and checksum bytes, valid or not. -/
def Obligations.FrameOpenResult : Prop :=
  (∀ f : Bytes, selectedBy 0x04 0x00 (.frameOpen f)) ∧
  (∀ (f : Bytes) (s : State), f.length < 2 → answers (.frameOpen f) s (framingErr .tooShort)) ∧
  (∀ (p : Bytes) (lo hi : Byte) (s : State),
    answers (.frameOpen (p ++ [lo, hi])) s
      (if lo.toNat + 256 * hi.toNat = checksumNat p then .value (.bytes p) else .err .checksumInvalid .none))

/-- The laws of R106: a checksum verifies; a sealed even frame sums to 0xFFFF; for odd payloads that fails in general. -/
def Obligations.ChecksumLaws : Prop :=
  (∀ (d : Bytes) (s : State), answers (.csumVerify d (csum d)) s (.value (.flag true))) ∧
  (∀ d : Bytes, d.length % 2 = 0 → totalNat (frameSeal d) % 0x10000 = 0xFFFF) ∧
  (∃ d : Bytes, d.length % 2 = 1 ∧ totalNat (frameSeal d) % 0x10000 ≠ 0xFFFF)

/-- R105: reordering whole words does not change the checksum; swapping the two bytes of a word does. -/
def Obligations.ChecksumWordOrder : Prop :=
  (∀ ws ws' : List (Byte × Byte), ws.Perm ws' →
    csum (ws.flatMap fun w => [w.1, w.2]) = csum (ws'.flatMap fun w => [w.1, w.2])) ∧
  (∀ (before after : Bytes) (a b : Byte), before.length % 2 = 0 → a ≠ b →
    csum (before ++ [a, b] ++ after) ≠ csum (before ++ [b, a] ++ after))

/-! ## Packet Codec -/

/-- CMD_DECODE (R120, R122, R123), on every byte sequence. -/
def Obligations.CmdDecodeResult : Prop :=
  (∀ b : Bytes, selectedBy 0x10 0x00 (.cmdDecode b)) ∧
  (∀ (b : Bytes) (s : State), b.length < 2 → answers (.cmdDecode b) s (.err .packetTooShort .none)) ∧
  (∀ (b0 : Byte) (c : CommandCode) (data : Bytes) (s : State),
    answers (.cmdDecode (b0 :: c.code :: data)) s
      (.cmd ⟨BitVec.ofNat 5 (b0.toNat % 32), decide (128 ≤ b0.toNat), c, data⟩)) ∧
  (∀ (b0 b1 : Byte) (data : Bytes) (s : State), b1 = 0x00 ∨ 6 ≤ b1.toNat →
    answers (.cmdDecode (b0 :: b1 :: data)) s (.err .commandNotSupported .none))

/-- STS_DECODE (R120, R136, R137), on every byte sequence. -/
def Obligations.StsDecodeResult : Prop :=
  (∀ b : Bytes, selectedBy 0x12 0x00 (.stsDecode b)) ∧
  (∀ (b : Bytes) (s : State), b.length < 2 → answers (.stsDecode b) s (.err .packetTooShort .none)) ∧
  (∀ (b0 : Byte) (c : StatusCode) (data : Bytes) (s : State),
    answers (.stsDecode (b0 :: c.code :: data)) s
      (.sts ⟨BitVec.ofNat 5 (b0.toNat % 32), decide (64 ≤ b0.toNat % 128), c, data⟩)) ∧
  (∀ (b0 b1 : Byte) (data : Bytes) (s : State), b1 = 0x00 ∨ 6 ≤ b1.toNat →
    answers (.stsDecode (b0 :: b1 :: data)) s (.err .statusInvalid .none))

/-- CMD_ENCODE (R130), on every operand: the sequence check first, then the code check, then the bytes. -/
def Obligations.CmdEncodeResult : Prop :=
  (∀ (seq cmd : Byte) (sync : Bool) (data : Bytes), selectedBy 0x11 0x00 (.cmdEncode seq sync cmd data)) ∧
  (∀ (seq cmd : Byte) (sync : Bool) (data : Bytes) (s : State), 32 ≤ seq.toNat →
    answers (.cmdEncode seq sync cmd data) s (.err .sequenceNumberOutOfRange .none)) ∧
  (∀ (seq cmd : Byte) (sync : Bool) (data : Bytes) (s : State), seq.toNat ≤ 31 → cmd = 0x00 ∨ 6 ≤ cmd.toNat →
    answers (.cmdEncode seq sync cmd data) s (.err .commandNotSupported .none)) ∧
  (∀ (seq cmd : Byte) (sync : Bool) (data : Bytes) (s : State), seq.toNat ≤ 31 → 1 ≤ cmd.toNat → cmd.toNat ≤ 5 →
    answers (.cmdEncode seq sync cmd data) s
      (.value (.bytes (BitVec.ofNat 8 ((if sync then 128 else 0) + seq.toNat) :: cmd :: data))))

/-- STS_ENCODE (R141), on every operand. -/
def Obligations.StsEncodeResult : Prop :=
  (∀ (seq status : Byte) (resend : Bool) (data : Bytes), selectedBy 0x13 0x00 (.stsEncode seq resend status data)) ∧
  (∀ (seq status : Byte) (resend : Bool) (data : Bytes) (s : State), 32 ≤ seq.toNat →
    answers (.stsEncode seq resend status data) s (.err .sequenceNumberOutOfRange .none)) ∧
  (∀ (seq status : Byte) (resend : Bool) (data : Bytes) (s : State), seq.toNat ≤ 31 →
    status = 0x00 ∨ 6 ≤ status.toNat →
    answers (.stsEncode seq resend status data) s (.err .statusInvalid .none)) ∧
  (∀ (seq status : Byte) (resend : Bool) (data : Bytes) (s : State), seq.toNat ≤ 31 → 1 ≤ status.toNat →
    status.toNat ≤ 5 →
    answers (.stsEncode seq resend status data) s
      (.value (.bytes (BitVec.ofNat 8 ((if resend then 64 else 0) + seq.toNat) :: status :: data))))

/-- The round-trip laws of R145: (a) decode after encode, for both packet kinds; (b) encode after decode when the reserved
bits are 0; (c) with a reserved bit set, the re-encoded byte 0 has it cleared. -/
def Obligations.PacketRoundTrip : Prop :=
  (∀ (p : CommandPacket) (s : State), ∃ b : Bytes,
    answers (.cmdEncode (p.seq.setWidth 8) p.sync p.cmd.code p.data) s (.value (.bytes b)) ∧
    answers (.cmdDecode b) s (.cmd p)) ∧
  (∀ (p : StatusPacket) (s : State), ∃ b : Bytes,
    answers (.stsEncode (p.seq.setWidth 8) p.resend p.status.code p.data) s (.value (.bytes b)) ∧
    answers (.stsDecode b) s (.sts p)) ∧
  (∀ (b0 : Byte) (c : CommandCode) (data : Bytes) (s : State), ∃ p : CommandPacket,
    answers (.cmdDecode (b0 :: c.code :: data)) s (.cmd p) ∧
    answers (.cmdEncode (p.seq.setWidth 8) p.sync p.cmd.code p.data) s
      (.value (.bytes ((b0 &&& 0x9F) :: c.code :: data)))) ∧
  (∀ (b0 : Byte) (c : StatusCode) (data : Bytes) (s : State), ∃ p : StatusPacket,
    answers (.stsDecode (b0 :: c.code :: data)) s (.sts p) ∧
    answers (.stsEncode (p.seq.setWidth 8) p.resend p.status.code p.data) s
      (.value (.bytes ((b0 &&& 0x5F) :: c.code :: data))))

/-- The Command header rows (R72, R75, R78, R123): the packet, whatever its reserved bits. -/
def Obligations.CommandHeaderRows : Prop :=
  ∀ (sync : Bool) (rsv : BitVec 2) (seq : BitVec 5) (data : Bytes) (s : State),
    answers (.cmdGetClientInfo sync rsv seq data) s (.cmd ⟨seq, sync, .getClientInfo, data⟩) ∧
    answers (.cmdStartTransfer sync rsv seq data) s (.cmd ⟨seq, sync, .startTransfer, data⟩) ∧
    answers (.cmdWriteChunk sync rsv seq data) s (.cmd ⟨seq, sync, .writeChunk, data⟩) ∧
    answers (.cmdGetImageState sync rsv seq data) s (.cmd ⟨seq, sync, .getImageState, data⟩) ∧
    answers (.cmdEndTransfer sync rsv seq data) s (.cmd ⟨seq, sync, .endTransfer, data⟩)

/-- The Status header rows (R73, R76, R78, R137): the packet, whatever its reserved bits. -/
def Obligations.StatusHeaderRows : Prop :=
  ∀ (r7 resend r5 : Bool) (seq : BitVec 5) (data : Bytes) (s : State),
    answers (.stsSuccess r7 resend r5 seq data) s (.sts ⟨seq, resend, .success, data⟩) ∧
    answers (.stsNotSupported r7 resend r5 seq data) s (.sts ⟨seq, resend, .notSupported, data⟩) ∧
    answers (.stsNotAuthorized r7 resend r5 seq data) s (.sts ⟨seq, resend, .notAuthorized, data⟩) ∧
    answers (.stsPacketTransportFailure r7 resend r5 seq data) s (.sts ⟨seq, resend, .packetTransportFailure, data⟩) ∧
    answers (.stsAbortFileTransfer r7 resend r5 seq data) s (.sts ⟨seq, resend, .abortFileTransfer, data⟩)

/-! ## Client-Info Codec and delay value -/

/-- CI_DECODE completes on every stream, with a well-formed record or a ClientInfoError (R34, R152). -/
def Obligations.CiDecodeCompletes : Prop :=
  ∀ (d : Bytes) (s : State), selectedBy 0x20 0x00 (.ciDecode d) ∧
    ((∃ ci : ClientInfo, (ci.overrides.map Prod.fst).Nodup ∧ answers (.ciDecode d) s (.value (.info ci))) ∨
     (∃ e : CiSub, answers (.ciDecode d) s (infoErr e)))

/-- CI_DECODE's errors (R82, R153 first two points, with the sub-codes of R152 and R331): after any legal records, the first
faulty one decides, whatever follows it. -/
def Obligations.CiDecodeFirstFaultDecides : Prop :=
  ∀ (s : State) (good : List (Byte × Bytes)), itdTypeLegal s.itdTypeCode = true →
    (∀ p ∈ good, recordLegal s.itdTypeCode p) →
    (∀ (t : Byte) (tail : Bytes), ¬ typeKnown s.itdTypeCode t →
      answers (.ciDecode (stream good ++ t :: tail)) s (infoErr .unknownType)) ∧
    (∀ t : Byte, typeKnown s.itdTypeCode t → answers (.ciDecode (stream good ++ [t])) s (infoErr .overrun)) ∧
    (∀ (t l : Byte) (body : Bytes), typeKnown s.itdTypeCode t → body.length < l.toNat →
      answers (.ciDecode (stream good ++ t :: l :: body)) s (infoErr .overrun)) ∧
    (∀ (t : Byte) (v tail : Bytes), typeKnown s.itdTypeCode t → v.length ≤ 255 → lengthBad t v.length →
      answers (.ciDecode (stream good ++ record (t, v) ++ tail)) s (infoErr .badLength)) ∧
    (∀ v tail : Bytes, v.length ≤ 255 → v.length % 3 = 0 → ¬ tripletCodesLegal v →
      answers (.ciDecode (stream good ++ record (0x03, v) ++ tail)) s (infoErr .unknownCommand))

/-- The mandatory fields (R153, R159): a stream of legal records without a version, or without a buffer info, or without a
default timeout, fails in that order. -/
def Obligations.CiDecodeMandatoryFields : Prop :=
  ∀ (s : State) (good : List (Byte × Bytes)), itdTypeLegal s.itdTypeCode = true →
    (∀ p ∈ good, recordLegal s.itdTypeCode p) →
    (0x01 ∉ good.map Prod.fst → answers (.ciDecode (stream good)) s (infoErr .missingVersion)) ∧
    (0x01 ∈ good.map Prod.fst → 0x02 ∉ good.map Prod.fst →
      answers (.ciDecode (stream good)) s (infoErr .missingBufferInfo)) ∧
    (0x01 ∈ good.map Prod.fst → 0x02 ∈ good.map Prod.fst →
      (∀ p ∈ good, p.1 = 0x03 → ∀ j, 3 * j < p.2.length → p.2.getD (3 * j) 0 ≠ 0x00) →
      answers (.ciDecode (stream good)) s (infoErr .missingDefaultTimeout))

/-- CI_DECODE of every stream of legal records that holds the mandatory fields somewhere, in any order and with any repeats
(R152, R154 to R159): the version, the buffer info and the delay of the last record of each type, the default of the last
triplet of code 0, and the overrides of all triplets of all records in stream order, where a later one of the same command
replaces the earlier in place. -/
def Obligations.CiDecodeLastWins : Prop :=
  ∀ (s : State) (l : List (Byte × Bytes)) (ver buf : Bytes) (deft : U16), itdTypeLegal s.itdTypeCode = true →
    (∀ p ∈ l, recordLegal s.itdTypeCode p) →
    lastValue l 0x01 = some ver → lastValue l 0x02 = some buf → lastDefault l = some deft →
    ∃ ci : ClientInfo, answers (.ciDecode (stream l)) s (.value (.info ci)) ∧
      ci.version = ⟨ver.getD 0 0, ver.getD 1 0, ver.getD 2 0, ver[3]?⟩ ∧
      ci.bufferSize = buf.getD 1 0 ++ buf.getD 0 0 ∧ ci.bufferCount = buf.getD 2 0 ∧
      ci.defaultTimeout = deft ∧
      ci.overrides.map (fun p => (p.1.code, p.2)) = (streamTriplets l).foldl addOverride [] ∧
      ci.itd = (lastValue l s.itdTypeCode).map fun v => v.getD 3 0 ++ v.getD 2 0 ++ v.getD 1 0 ++ v.getD 0 0

/-- Order independence (R167): permuting the records of a stream that decodes, with no record type and no timeout code
more than once, does not change the result. -/
def Obligations.CiDecodeOrderIndependent : Prop :=
  ∀ (s : State) (l l' : List (Byte × Bytes)) (ci : ClientInfo), l.Perm l' → (l.map Prod.fst).Nodup →
    (∀ p ∈ l, p.2.length ≤ 255) → answers (.ciDecode (stream l)) s (.value (.info ci)) →
      answers (.ciDecode (stream l')) s (.value (.info ci))

/-- CI_ENCODE (R160, R161) on a well-formed record: BUFFER_INFO, PROTOCOL_VERSION, COMMAND_TIMEOUTS with the default first,
then the delay if there is one; a record with a repeated override code is refused. -/
def Obligations.CiEncodeResult : Prop :=
  ∀ (ci : ClientInfo) (s : State), selectedBy 0x21 0x00 (.ciEncode ci) ∧
    ((ci.overrides.map Prod.fst).Nodup → answers (.ciEncode ci) s (.value (.bytes (stream
      ([(0x02, le16Bytes ci.bufferSize ++ [ci.bufferCount]),
        (0x01, [ci.version.major, ci.version.minor, ci.version.patch] ++ ci.version.pre.toList),
        (0x03, [0x00] ++ le16Bytes ci.defaultTimeout ++ ci.overrides.flatMap fun p => p.1.code :: le16Bytes p.2)] ++
       ci.itd.toList.map fun n => (s.itdTypeCode, le32Bytes n)))))) ∧
    (¬ (ci.overrides.map Prod.fst).Nodup → exec (.ciEncode ci) s = .refused .illFormedRecord)

/-- Round trip (R168): CI_DECODE of CI_ENCODE of a well-formed record is the record. -/
def Obligations.CiRoundTrip : Prop :=
  ∀ (ci : ClientInfo) (s : State), itdTypeLegal s.itdTypeCode = true → (ci.overrides.map Prod.fst).Nodup →
    ∃ b : Bytes, answers (.ciEncode ci) s (.value (.bytes b)) ∧ answers (.ciDecode b) s (.value (.info ci))

/-- CI_SET_DEFAULT_TIMEOUTS (R162): existing overrides keep value and position, missing commands follow in command-code
order with the default; of a well-formed record there are then five; a second time changes nothing. -/
def Obligations.CiSetDefaultTimeoutsResult : Prop :=
  ∀ (ci : ClientInfo) (s : State), selectedBy 0x22 0x00 (.ciSetDefaultTimeouts ci) ∧
    (∃ missing : List CommandCode,
      missing = [CommandCode.getClientInfo, .startTransfer, .writeChunk, .getImageState, .endTransfer].filter
        (fun c => decide (c ∉ ci.overrides.map Prod.fst)) ∧
      answers (.ciSetDefaultTimeouts ci) s (.value (.info
        { ci with overrides := ci.overrides ++ missing.map (fun c => (c, ci.defaultTimeout)) }))) ∧
    ((ci.overrides.map Prod.fst).Nodup → (ciSetDefaultTimeouts ci).overrides.length = 5) ∧
    answers (.ciSetDefaultTimeouts (ciSetDefaultTimeouts ci)) s (.value (.info (ciSetDefaultTimeouts ci)))

/-- The parameter rows with a record of their own and the two other mandatory ones after it (R80, R81, R154 to R157). -/
def Obligations.ParameterRowFields : Prop :=
  ∀ (s : State) (a b c d lo hi n tlo thi : Byte), itdTypeLegal s.itdTypeCode = true →
    answers (.tlvProtocolVersion 3 ([a, b, c] ++ record (0x02, [lo, hi, n]) ++ record (0x03, [0x00, tlo, thi]))) s
      (.value (.info ⟨⟨a, b, c, none⟩, n, hi ++ lo, thi ++ tlo, [], none⟩)) ∧
    answers (.tlvProtocolVersion 4 ([a, b, c, d] ++ record (0x02, [lo, hi, n]) ++ record (0x03, [0x00, tlo, thi]))) s
      (.value (.info ⟨⟨a, b, c, some d⟩, n, hi ++ lo, thi ++ tlo, [], none⟩)) ∧
    answers (.tlvBufferInfo 3 ([lo, hi, n] ++ record (0x01, [a, b, c]) ++ record (0x03, [0x00, tlo, thi]))) s
      (.value (.info ⟨⟨a, b, c, none⟩, n, hi ++ lo, thi ++ tlo, [], none⟩)) ∧
    answers (.tlvCommandTimeouts 6
        ([0x00, tlo, thi, 0x04, lo, hi] ++ record (0x01, [a, b, c]) ++ record (0x02, [lo, hi, n]))) s
      (.value (.info ⟨⟨a, b, c, none⟩, n, hi ++ lo, thi ++ tlo, [(.getImageState, hi ++ lo)], none⟩)) ∧
    answers (.tlvInterTransactionDelay 4
        ([a, b, c, d] ++ record (0x01, [a, b, c]) ++ record (0x02, [lo, hi, n]) ++ record (0x03, [0x00, tlo, thi]))) s
      (.value (.info ⟨⟨a, b, c, none⟩, n, hi ++ lo, thi ++ tlo, [], some (d ++ c ++ b ++ a)⟩))

/-- Every form of the parameter rows completes, with the result CI_DECODE gives the stream that begins with the record:
the row's type byte, the length byte, and the rest (R79, R80, R152; that a row stands for such a stream is the model's
choice, log 3). -/
def Obligations.ParameterRowsComplete : Prop :=
  ∀ (len : Byte) (body : Bytes) (s : State),
    (∃ r, answers (.tlvProtocolVersion len body) s r ∧ answers (.ciDecode (0x01 :: len :: body)) s r) ∧
    (∃ r, answers (.tlvBufferInfo len body) s r ∧ answers (.ciDecode (0x02 :: len :: body)) s r) ∧
    (∃ r, answers (.tlvCommandTimeouts len body) s r ∧ answers (.ciDecode (0x03 :: len :: body)) s r) ∧
    (∃ r, answers (.tlvInterTransactionDelay len body) s r ∧
      answers (.ciDecode (s.itdTypeCode :: len :: body)) s r)

/-- The delay value type (R163, R164, R165), on every operand, and ITD_DECODE after ITD_ENCODE. -/
def Obligations.DelayResults : Prop :=
  (∀ (m : Nat) (b : Bytes) (n : U32), selectedBy 0x28 0x00 (.itdFromNs m) ∧ selectedBy 0x29 0x00 (.itdDecode b) ∧
    selectedBy 0x2A 0x00 (.itdEncode n)) ∧
  (∀ (n : Nat) (s : State), n ≤ 0xFFFFFFFF → answers (.itdFromNs n) s (.value (.delay (BitVec.ofNat 32 n)))) ∧
  (∀ (n : Nat) (s : State), 0xFFFFFFFF < n → answers (.itdFromNs n) s (.err (.delayOutOfRange .tooLarge) .none)) ∧
  (∀ (b : Bytes) (s : State), b.length ≠ 4 → answers (.itdDecode b) s (.err (.delayOutOfRange .badSize) .none)) ∧
  (∀ (b0 b1 b2 b3 : Byte) (s : State), answers (.itdDecode [b0, b1, b2, b3]) s (.value (.delay
    (BitVec.ofNat 32 (b0.toNat + 2 ^ 8 * b1.toNat + 2 ^ 16 * b2.toNat + 2 ^ 24 * b3.toNat))))) ∧
  (∀ (n : U32) (s : State), answers (.itdEncode n) s (.value (.bytes
    [BitVec.ofNat 8 n.toNat, BitVec.ofNat 8 (n.toNat / 2 ^ 8), BitVec.ofNat 8 (n.toNat / 2 ^ 16),
     BitVec.ofNat 8 (n.toNat / 2 ^ 24)])))

/-! ## Serial framer -/

/-- SER_ESCAPE (R84, R201): byte by byte; the output holds no 56 or 9E and is longer by the number of special bytes. -/
def Obligations.SerEscapeResult : Prop :=
  ∀ (d : Bytes) (s : State), selectedBy 0x30 0x00 (.serEscape d) ∧ ∃ e : Bytes, answers (.serEscape d) s (.value (.bytes e)) ∧
    e = d.flatMap (fun x => if x = 0x56 then [0xCC, 0xA9] else if x = 0x9E then [0xCC, 0x61]
      else if x = 0xCC then [0xCC, 0x33] else [x]) ∧
    0x56 ∉ e ∧ 0x9E ∉ e ∧
    e.length = d.length + d.countP fun x => x == 0x56 || x == 0x9E || x == 0xCC

/-- SER_UNESCAPE (R202, R211 (a)) on every body: it gives `d` on the escaping of `d`, and FE_BAD_ESCAPE on a body that is
no escaping. -/
def Obligations.SerUnescapeResult : Prop :=
  (∀ e : Bytes, selectedBy 0x31 0x00 (.serUnescape e)) ∧
  (∀ (d : Bytes) (s : State), answers (.serUnescape (serEscape d)) s (.value (.bytes d))) ∧
  (∀ (e : Bytes) (s : State), (∀ d, e ≠ serEscape d) → answers (.serUnescape e) s (framingErr .badEscape))

/-- The escape rows (R84, R202), on every rest of the body: the pair gives its literal before what the rest gives, and a
rest that is no escaping, an unknown pair or a dangling escape code is FE_BAD_ESCAPE. -/
def Obligations.EscapeRows : Prop :=
  (∀ (d : Bytes) (s : State),
    answers (.serEsc56 (serEscape d)) s (.value (.bytes (0x56 :: d))) ∧
    answers (.serEsc9E (serEscape d)) s (.value (.bytes (0x9E :: d))) ∧
    answers (.serEscCC (serEscape d)) s (.value (.bytes (0xCC :: d))) ∧
    answers (.serEsc (0xA9 :: serEscape d)) s (.value (.bytes (0x56 :: d))) ∧
    answers (.serEsc (0x61 :: serEscape d)) s (.value (.bytes (0x9E :: d))) ∧
    answers (.serEsc (0x33 :: serEscape d)) s (.value (.bytes (0xCC :: d)))) ∧
  (∀ (rest : Bytes) (s : State), (∀ d, rest ≠ serEscape d) →
    answers (.serEsc56 rest) s (framingErr .badEscape) ∧
    answers (.serEsc9E rest) s (framingErr .badEscape) ∧
    answers (.serEscCC rest) s (framingErr .badEscape) ∧
    ∀ y : Byte, answers (.serEsc (y :: rest)) s (framingErr .badEscape)) ∧
  (∀ (y : Byte) (rest : Bytes) (s : State), y ≠ 0xA9 → y ≠ 0x61 → y ≠ 0x33 →
    answers (.serEsc (y :: rest)) s (framingErr .badEscape)) ∧
  (∀ s : State, answers (.serEsc []) s (framingErr .badEscape))

/-- SER_FRAME_ENCODE and SER_FRAME_DECODE (R83, R203, R204, R211 (b)): start code, the escaped sealed packet, end code, and
no other start or end code; decoding the frame is the packet decoder of the direction. -/
def Obligations.SerFrameRoundTrip : Prop :=
  ∀ (p : Bytes) (s : State), selectedBy 0x32 0x00 (.serFrameEncode p) ∧ ∃ body : Bytes,
    answers (.serFrameEncode p) s (.value (.bytes (0x56 :: body ++ [0x9E]))) ∧ 0x56 ∉ body ∧ 0x9E ∉ body ∧
    answers (.serUnescape body) s (.value (.bytes (frameSeal p))) ∧
    (∃ r, answers (.cmdDecode p) s r ∧ answers (.serFrameDecode (0x56 :: body ++ [0x9E]) .cmd) s r) ∧
    (∃ r, answers (.stsDecode p) s r ∧ answers (.serFrameDecode (0x56 :: body ++ [0x9E]) .rsp) s r)

/-- SER_FRAME_DECODE's failures in the order of R204: start code, end code, escapes, length, checksum. -/
def Obligations.SerFrameDecodeErrors : Prop :=
  ∀ (dir : Dir) (s : State),
    (∀ f : Bytes, selectedBy 0x33 0x00 (.serFrameDecode f dir)) ∧
    answers (.serFrameDecode [] dir) s (framingErr .badStart) ∧
    (∀ (b : Byte) (rest : Bytes), b ≠ 0x56 → answers (.serFrameDecode (b :: rest) dir) s (framingErr .badStart)) ∧
    answers (.serFrameDecode [0x56] dir) s (framingErr .badEnd) ∧
    (∀ (body : Bytes) (b : Byte), b ≠ 0x9E →
      answers (.serFrameDecode (0x56 :: body ++ [b]) dir) s (framingErr .badEnd)) ∧
    (∀ body : Bytes, (∀ d, body ≠ serEscape d) →
      answers (.serFrameDecode (0x56 :: body ++ [0x9E]) dir) s (framingErr .badEscape)) ∧
    (∀ u : Bytes, u.length < 2 →
      answers (.serFrameDecode (0x56 :: serEscape u ++ [0x9E]) dir) s (framingErr .tooShort)) ∧
    (∀ (p : Bytes) (lo hi : Byte), lo.toNat + 256 * hi.toNat ≠ checksumNat p →
      answers (.serFrameDecode (0x56 :: serEscape (p ++ [lo, hi]) ++ [0x9E]) dir) s (.err .checksumInvalid .none))

/-- SER_BYTE (R205 to R208) in every state of the framer and for every byte. -/
def Obligations.SerByteResult : Prop :=
  ∀ (k b : Byte) (s : State) (u : SerFramer), s.serAt k = some u →
    selectedBy 0x34 k (.serByte k b) ∧
    (u.state = .idle → b ≠ 0x56 →
      exec (.serByte k b) s = .next ((s.setSer k u).emit (.result .none))) ∧
    (exec (.serByte k 0x56) s = .next ((s.setSer k { u with state := .decoding, buf := [] }).emit (.result .none))) ∧
    (u.state = .decoding → ∃ r, answers (.serFrameDecode (0x56 :: u.buf ++ [0x9E]) u.dir) s r ∧
      exec (.serByte k 0x9E) s = .next ((s.setSer k { u with state := .idle, buf := [] }).emit (.result r))) ∧
    (u.state = .decoding → b ≠ 0x56 → b ≠ 0x9E → u.cap = some u.buf.length →
      exec (.serByte k b) s =
        .next ((s.setSer k { u with state := .idle, buf := [] }).emit (.result (framingErr .overflow)))) ∧
    (u.state = .decoding → b ≠ 0x56 → b ≠ 0x9E → u.cap ≠ some u.buf.length →
      exec (.serByte k b) s = .next ((s.setSer k { u with buf := u.buf ++ [b] }).emit (.result .none)))

/-- A whole frame fed byte by byte (R206, R207, R211 (c), (d), R365): from any state of the framer, or after bytes without
a start code in IDLE, NONE for every byte but the last, the packet decoder's result on the last, and the framer in IDLE;
its buffer must be able to hold the body. -/
def Obligations.SerialFrameFeed : Prop :=
  ∀ (k : Byte) (noise p : Bytes) (s : State) (u : SerFramer), s.serAt k = some u →
    (noise = [] ∨ u.state = .idle ∧ 0x56 ∉ noise) →
    (∀ n, u.cap = some n → (serEscape (frameSeal p)).length ≤ n) →
    ∃ r, answers (match u.dir with | .cmd => .cmdDecode p | .rsp => .stsDecode p) s r ∧
      runAll (serFeed k (noise ++ serFrameEncode p)) s =
        some ((s.setSer k { u with state := .idle, buf := [] }).emit (.result r),
          List.replicate (noise.length + (serEscape (frameSeal p)).length + 1) (.result .none) ++ [.result r])

/-! ## I2C framer -/

/-- Write transactions (R242, R246) in every phase: a sealed packet starts the cycle, even when its decode fails; a bad
checksum or a short frame changes nothing. The address is not looked at (R249). -/
def Obligations.I2cWriteResult : Prop :=
  ∀ (k : Byte) (addr : BitVec 7) (s : State) (u : I2cFramer), s.i2cAt k = some u →
    (∀ p : Bytes, exec (.i2cTxn k .write addr (frameSeal p)) s =
      .next ((s.setI2c k { u with phase := .responseStatus, rspLen := none }).emit
        (.result (cmdResult (cmdDecode p) (.i2c u.phase))))) ∧
    (∀ (p : Bytes) (lo hi : Byte), lo.toNat + 256 * hi.toNat ≠ checksumNat p →
      exec (.i2cTxn k .write addr (p ++ [lo, hi])) s =
        .next ((s.setI2c k u).emit (.result (.err .checksumInvalid (.i2c u.phase))))) ∧
    (∀ data : Bytes, data.length < 2 →
      exec (.i2cTxn k .write addr data) s =
        .next ((s.setI2c k u).emit (.result (.err (.framingError .tooShort) (.i2c u.phase)))))

/-- Status polls (R243): in COMMAND and RESPONSE_STATUS the byte is reported; only bit 1, and only in RESPONSE_STATUS,
moves the phase; an empty read is FE_TOO_SHORT. -/
def Obligations.I2cPollResult : Prop :=
  ∀ (k : Byte) (addr : BitVec 7) (s : State) (u : I2cFramer), s.i2cAt k = some u →
    u.phase = .command ∨ u.phase = .responseStatus →
    (∀ (st : Byte) (more : Bytes), exec (.i2cTxn k .read addr (st :: more)) s =
      .next ((s.setI2c k (if u.phase = .responseStatus ∧ st.toNat / 2 % 2 = 1 then
          { u with phase := .responseLength } else u)).emit (.result (.poll ⟨st⟩)))) ∧
    exec (.i2cTxn k .read addr []) s =
      .next ((s.setI2c k u).emit (.result (.err (.framingError .tooShort) (.i2c u.phase))))

/-- The status-bit rows (R87, R243, R250) in COMMAND and RESPONSE_STATUS: the byte is reported with its named bit set;
RSP_READY alone moves RESPONSE_STATUS; CMD_READY and bit 7 move nothing by themselves. -/
def Obligations.I2cStatusRows : Prop :=
  ∀ (k : Byte) (s : State) (u : I2cFramer) (more : Bytes), s.i2cAt k = some u →
    u.phase = .command ∨ u.phase = .responseStatus →
    (∀ hi : BitVec 7, ∃ p : PollStatus, p.cmdReady = true ∧ p.raw.toNat = 2 * hi.toNat + 1 ∧
      exec (.i2cCmdReady k hi more) s =
        .next ((s.setI2c k (if u.phase = .responseStatus ∧ hi.toNat % 2 = 1 then
          { u with phase := .responseLength } else u)).emit (.result (.poll p)))) ∧
    (∀ (hi : BitVec 6) (lo : BitVec 1), ∃ p : PollStatus, p.rspReady = true ∧
      p.raw.toNat = 4 * hi.toNat + 2 + lo.toNat ∧
      exec (.i2cRspReady k hi lo more) s =
        .next ((s.setI2c k (if u.phase = .responseStatus then
          { u with phase := .responseLength } else u)).emit (.result (.poll p)))) ∧
    (∀ lo : BitVec 7, ∃ p : PollStatus, p.bit7 = true ∧ p.raw.toNat = 128 + lo.toNat ∧
      exec (.i2cBit7 k lo more) s =
        .next ((s.setI2c k (if u.phase = .responseStatus ∧ lo.toNat / 2 % 2 = 1 then
          { u with phase := .responseLength } else u)).emit (.result (.poll p))))

/-- Response-length reads (R244), on every data. -/
def Obligations.I2cLengthResult : Prop :=
  ∀ (k : Byte) (addr : BitVec 7) (s : State) (u : I2cFramer), s.i2cAt k = some u → u.phase = .responseLength →
    (∀ (l0 l1 c0 c1 : Byte) (more : Bytes), exec (.i2cTxn k .read addr (l0 :: l1 :: c0 :: c1 :: more)) s =
      if c0.toNat + 256 * c1.toNat = checksumNat [l0, l1] then
        .next ((s.setI2c k { u with rspLen := some (l1 ++ l0), phase := .response }).emit (.result (.len (l1 ++ l0))))
      else .next ((s.setI2c k u).emit (.result (.err .checksumInvalid (.i2c .responseLength))))) ∧
    (∀ data : Bytes, data.length < 4 → exec (.i2cTxn k .read addr data) s =
      .next ((s.setI2c k u).emit (.result (.err (.framingError .tooShort) (.i2c .responseLength)))))

/-- Response reads (R245), on every data: the first `rsp_len + adjust` bytes are the sealed frame, the rest is ignored. -/
def Obligations.I2cResponseResult : Prop :=
  ∀ (k : Byte) (addr : BitVec 7) (s : State) (u : I2cFramer) (l : U16), s.i2cAt k = some u →
    u.phase = .response → u.rspLen = some l →
    (∀ (p more : Bytes) (lo hi : Byte), p.length + 2 = l.toNat + u.adjust →
      exec (.i2cTxn k .read addr (p ++ [lo, hi] ++ more)) s =
        if lo.toNat + 256 * hi.toNat = checksumNat p then
          .next ((s.setI2c k { u with phase := .command, rspLen := none }).emit
            (.result (stsResult (stsDecode p) (.i2c .response))))
        else .next ((s.setI2c k u).emit (.result (.err .checksumInvalid (.i2c .response))))) ∧
    (∀ data : Bytes, data.length < l.toNat + u.adjust ∨ l.toNat + u.adjust < 2 →
      exec (.i2cTxn k .read addr data) s =
        .next ((s.setI2c k u).emit (.result (.err (.framingError .tooShort) (.i2c .response)))))

/-- Retry on failure (R246): whatever I2C instruction ends in a checksum or too-short error, no framer has changed, and the
error carries the phase at which the transaction arrived. -/
def Obligations.I2cRetryOnFailure : Prop :=
  ∀ (i : Instr) (k : Byte) (s t : State) (u : I2cFramer) (e : ErrorKind) (ph : ErrPhase),
    target i = some (.i2c, k.toNat) → s.i2cAt k = some u → exec i s = .next t → t.reply = .result (.err e ph) →
    ph = .i2c u.phase ∧ (e = .checksumInvalid ∨ e = .framingError .tooShort → t.i2c = s.i2c)

/-- Every I2C transaction completes in every phase of a framer that keeps R27 (R241), and so does every status-bit row; that a
row stands for a read whose byte has its bit is the model's choice (log 3). -/
def Obligations.I2cAlwaysCompletes : Prop :=
  ∀ (k : Byte) (s : State) (u : I2cFramer), s.i2cAt k = some u → (u.phase = .response → u.rspLen ≠ none) →
    (∀ (rw : Rw) (addr : BitVec 7) (data : Bytes), selectedBy 0x40 k (.i2cTxn k rw addr data) ∧ ∃ u' r,
      exec (.i2cTxn k rw addr data) s = .next ((s.setI2c k u').emit (.result r))) ∧
    (∀ (hi : BitVec 7) (more : Bytes), ∃ u' r,
      exec (.i2cCmdReady k hi more) s = .next ((s.setI2c k u').emit (.result r))) ∧
    (∀ (hi : BitVec 6) (lo : BitVec 1) (more : Bytes), ∃ u' r,
      exec (.i2cRspReady k hi lo more) s = .next ((s.setI2c k u').emit (.result r))) ∧
    (∀ (lo : BitVec 7) (more : Bytes), ∃ u' r,
      exec (.i2cBit7 k lo more) s = .next ((s.setI2c k u').emit (.result r)))

/-- The client-driven cycle (R240, R247): from any phase, a sealed command, a ready poll, the length of the response frame
and the frame itself give the command, the poll, the length and the status, and the framer is back in COMMAND. -/
def Obligations.I2cFullCycle : Prop :=
  ∀ (k : Byte) (addr : BitVec 7) (s : State) (u : I2cFramer) (p q : Bytes) (st : Byte) (l : U16),
    s.i2cAt k = some u → st.toNat / 2 % 2 = 1 → l.toNat + u.adjust = q.length + 2 →
    runAll (i2cCmd k addr p ++ [.i2cTxn k .read addr [st], .i2cTxn k .read addr (frameSeal (le16Bytes l)),
        .i2cTxn k .read addr (frameSeal q)]) s =
      some ((s.setI2c k { u with phase := .command, rspLen := none }).emit
          (.result (stsResult (stsDecode q) (.i2c .response))),
        [.result (cmdResult (cmdDecode p) (.i2c u.phase)), .result (.poll ⟨st⟩), .result (.len l),
         .result (stsResult (stsDecode q) (.i2c .response))])

/-! ## SPI framer -/

/-- WRITE transactions (R282, R288) on every frame; miso is not looked at. -/
def Obligations.SpiWriteResult : Prop :=
  ∀ (k : Byte) (miso : Bytes) (s : State) (u : SpiFramer), s.spiAt k = some u →
    (∀ p : Bytes, exec (.spiTxn k (0x11 :: frameSeal p) miso) s =
      .next ((s.setSpi k { u with rspLen := none }).emit (.result (cmdResult (cmdDecode p) .spiWrite)))) ∧
    (∀ (p : Bytes) (lo hi : Byte), lo.toNat + 256 * hi.toNat ≠ checksumNat p →
      exec (.spiTxn k (0x11 :: (p ++ [lo, hi])) miso) s =
        .next ((s.setSpi k u).emit (.result (.err .checksumInvalid .spiWrite)))) ∧
    (∀ f : Bytes, f.length < 2 → exec (.spiTxn k (0x11 :: f) miso) s =
      .next ((s.setSpi k u).emit (.result (.err (.framingError .tooShort) .spiWrite))))

/-- Not ready (R283): a query without a tag changes nothing, whatever follows 0x55 in mosi. The bytes of the tags are those of
R88, PRESUMED (log 11). -/
def Obligations.SpiNotReadyResult : Prop :=
  ∀ (k : Byte) (rest miso : Bytes) (s : State) (u : SpiFramer), s.spiAt k = some u →
    miso.length < 4 ∨ ((miso.drop 1).take 3 ≠ [0x4C, 0x45, 0x4E] ∧ (miso.drop 1).take 3 ≠ [0x52, 0x53, 0x50]) →
    exec (.spiTxn k (0x55 :: rest) miso) s = .next ((s.setSpi k u).emit (.result .notReady))

/-- LEN replies (R284) on every body; the dummy byte and the rest of mosi are not looked at (R281). The bytes of the tag are
those of R88, PRESUMED (log 11). -/
def Obligations.SpiLenResult : Prop :=
  ∀ (k dummy : Byte) (rest : Bytes) (s : State) (u : SpiFramer), s.spiAt k = some u →
    (∀ (l0 l1 c0 c1 : Byte) (more : Bytes),
      exec (.spiTxn k (0x55 :: rest) ([dummy, 0x4C, 0x45, 0x4E, l0, l1, c0, c1] ++ more)) s =
        if c0.toNat + 256 * c1.toNat = checksumNat [l0, l1] then
          .next ((s.setSpi k { u with rspLen := some (l1 ++ l0) }).emit (.result (.len (l1 ++ l0))))
        else .next ((s.setSpi k u).emit (.result (.err .checksumInvalid .spiRead)))) ∧
    (∀ body : Bytes, body.length < 4 →
      exec (.spiTxn k (0x55 :: rest) ([dummy, 0x4C, 0x45, 0x4E] ++ body)) s =
        .next ((s.setSpi k u).emit (.result (.err (.framingError .tooShort) .spiRead))))

/-- RSP replies (R285) on every body: with a length, its first `L + adjust` bytes; without one, the whole body. The
bytes of the tag are those of R88, PRESUMED (log 11). -/
def Obligations.SpiRspResult : Prop :=
  ∀ (k dummy : Byte) (rest body : Bytes) (s : State) (u : SpiFramer), s.spiAt k = some u →
    (∀ (p more : Bytes) (lo hi : Byte), body = p ++ [lo, hi] ++ more →
      (∀ l, u.rspLen = some l → p.length + 2 = l.toNat + u.adjust) → (u.rspLen = none → more = []) →
      exec (.spiTxn k (0x55 :: rest) ([dummy, 0x52, 0x53, 0x50] ++ body)) s =
        if lo.toNat + 256 * hi.toNat = checksumNat p then
          .next ((s.setSpi k { u with rspLen := none }).emit (.result (stsResult (stsDecode p) .spiRead)))
        else .next ((s.setSpi k u).emit (.result (.err .checksumInvalid .spiRead)))) ∧
    ((∀ l, u.rspLen = some l → body.length < l.toNat + u.adjust ∨ l.toNat + u.adjust < 2) →
      (u.rspLen = none → body.length < 2) →
      exec (.spiTxn k (0x55 :: rest) ([dummy, 0x52, 0x53, 0x50] ++ body)) s =
        .next ((s.setSpi k u).emit (.result (.err (.framingError .tooShort) .spiRead))))

/-- SPI_TXN completes on every transaction (R281); an unexpected outbound first byte (R286) is an error with no phase, and
no state change. -/
def Obligations.SpiTxnCompletes : Prop :=
  ∀ (k : Byte) (mosi miso : Bytes) (s : State) (u : SpiFramer), s.spiAt k = some u →
    selectedBy 0x50 k (.spiTxn k mosi miso) ∧
    (∃ u' r, exec (.spiTxn k mosi miso) s = .next ((s.setSpi k u').emit (.result r))) ∧
    ((∀ b rest, mosi = b :: rest → b ≠ 0x11 ∧ b ≠ 0x55) →
      exec (.spiTxn k mosi miso) s = .next ((s.setSpi k u).emit (.result (framingErr .unexpectedPrefix))))

/-- Every wire input, whether or not it begins with the code of a row, runs its unit's operation on the whole input: a Command
or Status packet of any bytes (R77, R123, R137), a parameter stream (R82, R152), a byte on a serial line (R205 to R207), a
frame body (R85, R202), an SPI transaction and a reply to a query (R89, R281), an I2C read at any address (R241). The rows
SER.START, SER.END, SPI.WRITE, SPI.READ, SPI.TAG_LEN and SPI.TAG_RSP complete as that operation (R83, R88). The model's: what
a row stands for (log 3), the sources (log 4), the layout of the SPI inputs (log 2); the tag bytes are PRESUMED (log 11). -/
def Obligations.WireInputsRunTheirUnit : Prop :=
  (∀ (p5 : Byte) (bs : Bytes),
    runsAs p5 .commandPacket bs (.cmdDecode bs) ∧ runsAs p5 .statusPacket bs (.stsDecode bs) ∧
    runsAs p5 .parameterStream bs (.ciDecode bs) ∧ runsAs p5 .escapedBody bs (.serUnescape bs) ∧
    runsAs p5 .escapePair bs (.serUnescape bs)) ∧
  (∀ p5 k b : Byte, runsAs p5 (.serialLine k) [b] (.serByte k b)) ∧
  (∀ p5 k : Byte, runsAs p5 (.spiOutbound k) [] (.spiTxn k [] [])) ∧
  (∀ (p5 k b : Byte) (rest miso : Bytes),
    runsAs p5 (.spiOutbound k) (b :: (putBytes rest ++ putBytes miso)) (.spiTxn k (b :: rest) miso)) ∧
  (∀ (p5 k t0 t1 t2 dummy : Byte) (rest body : Bytes),
    runsAs p5 (.spiReply k) ([t0, t1, t2, dummy] ++ putBytes rest ++ putBytes body)
      (.spiTxn k (0x55 :: rest) ([dummy, t0, t1, t2] ++ body))) ∧
  (∀ (p5 k : Byte) (bit : StatusBit) (addr : BitVec 7) (bs : Bytes),
    runsAs p5 (.i2cStatus k bit) bs (.i2cTxn k .read addr bs)) ∧
  (∀ (k : Byte) (s : State) (u : SerFramer), s.serAt k = some u →
    (∃ t, exec (.serStart k) s = .next t ∧ exec (.serByte k 0x56) s = .next t) ∧
    (∃ t, exec (.serEnd k) s = .next t ∧ exec (.serByte k 0x9E) s = .next t)) ∧
  (∀ (k dummy : Byte) (rest miso : Bytes) (s : State) (u : SpiFramer), s.spiAt k = some u →
    (∃ t, exec (.spiWrite k rest miso) s = .next t ∧ exec (.spiTxn k (0x11 :: rest) miso) s = .next t) ∧
    (∃ t, exec (.spiRead k rest miso) s = .next t ∧ exec (.spiTxn k (0x55 :: rest) miso) s = .next t) ∧
    (∃ t, exec (.spiTagLen k rest dummy miso) s = .next t ∧
      exec (.spiTxn k (0x55 :: rest) ([dummy, 0x4C, 0x45, 0x4E] ++ miso)) s = .next t) ∧
    (∃ t, exec (.spiTagRsp k rest dummy miso) s = .next t ∧
      exec (.spiTxn k (0x55 :: rest) ([dummy, 0x52, 0x53, 0x50] ++ miso)) s = .next t))

/-! ## Session pairing, framer reset, errors -/

/-- SESSION_RESULT (R310, R311, R312), on every result: a command is remembered; a status takes the memory, and has a
client-info decode exactly when it is a SUCCESS that answers GET_CLIENT_INFO, whatever its sequence number; anything else
passes through. -/
def Obligations.SessionResultRule : Prop :=
  ∀ (k : Byte) (s : State) (u : SessionUnit), s.sessAt k = some u →
    (∀ r : Result, selectedBy 0x60 k (.sessionResult k r)) ∧
    (∀ p : CommandPacket, exec (.sessionResult k (.cmd p)) s =
      .next ((s.setSess k ⟨some p.cmd⟩).emit (.pair (.cmd p) none))) ∧
    (∀ q : StatusPacket, u.lastCmd = some .getClientInfo → q.status = .success →
      ∃ r, answers (.ciDecode q.data) s r ∧
        exec (.sessionResult k (.sts q)) s = .next ((s.setSess k ⟨none⟩).emit (.pair (.sts q) (some r)))) ∧
    (∀ q : StatusPacket, u.lastCmd ≠ some .getClientInfo ∨ q.status ≠ .success →
      exec (.sessionResult k (.sts q)) s = .next ((s.setSess k ⟨none⟩).emit (.pair (.sts q) none))) ∧
    (∀ r : Result, (∀ p, r ≠ .cmd p) → (∀ q, r ≠ .sts q) →
      exec (.sessionResult k r) s = .next ((s.setSess k u).emit (.pair r none)))

/-- FRAMER_RESET (R39, R71, R314): the agent is in its reset state, its parameters as they were, and the result is NONE. -/
def Obligations.FramerResetResult : Prop :=
  (∀ c k : Byte, selectedBy 0x70 k (.framerReset c k)) ∧
  (∀ (k : Byte) (s : State) (u : SerFramer), s.serAt k = some u →
    exec (.framerReset 0x34 k) s = .next ((s.setSer k ⟨u.dir, u.cap, .idle, []⟩).emit (.result .none))) ∧
  (∀ (k : Byte) (s : State) (u : I2cFramer), s.i2cAt k = some u →
    exec (.framerReset 0x40 k) s =
      .next ((s.setI2c k ⟨u.adjust, u.bit7Mode, .command, none⟩).emit (.result .none))) ∧
  (∀ (k : Byte) (s : State) (u : SpiFramer), s.spiAt k = some u →
    exec (.framerReset 0x50 k) s = .next ((s.setSpi k ⟨u.adjust, none⟩).emit (.result .none))) ∧
  (∀ (k : Byte) (s : State) (u : SessionUnit), s.sessAt k = some u →
    exec (.framerReset 0x60 k) s = .next ((s.setSess k ⟨none⟩).emit (.result .none)))

/-- Every instruction on an agent the host has not created, or has discarded, is refused by name (R36, R313; DEDUCED, log 7),
and so is FRAMER_RESET of an operand that is no unit class (R71; DESIGN CHOICE, log 15). -/
def Obligations.MissingAgentRefused : Prop :=
  (∀ (b k : Byte) (s : State), b ≠ 0x34 → b ≠ 0x40 → b ≠ 0x50 → b ≠ 0x60 →
    exec (.framerReset b k) s = .refused (.unknownUnitClass b)) ∧
  ∀ (i : Instr) (c : UnitClass) (n : Nat) (s : State), target i = some (c, n) → hasAgent s c n = false →
    exec i s = .refused (.noInstance c n)

/-- The numbers of R330 and R331: kind and sub-code tell every error apart, and each has the table's numbers. -/
def Obligations.ErrorNumbers : Prop :=
  (∀ e f : ErrorKind, e.code = f.code → e.sub = f.sub → e = f) ∧
  (ErrorKind.all.map fun e => (e.code.toNat, e.sub.toNat)) =
    [(1, 0), (2, 0), (3, 0), (4, 0), (5, 1), (5, 2), (5, 3), (5, 4), (5, 5), (5, 6), (5, 7),
     (6, 1), (6, 2), (6, 3), (6, 4), (6, 5), (6, 6), (7, 0), (8, 1), (8, 2)] ∧
  ErrorKind.all = [.checksumInvalid, .sequenceNumberOutOfRange, .commandNotSupported, .statusInvalid,
    .clientInfoError .unknownType, .clientInfoError .overrun, .clientInfoError .badLength,
    .clientInfoError .unknownCommand, .clientInfoError .missingVersion, .clientInfoError .missingBufferInfo,
    .clientInfoError .missingDefaultTimeout, .framingError .badStart, .framingError .badEnd,
    .framingError .badEscape, .framingError .tooShort, .framingError .unexpectedPrefix, .framingError .overflow,
    .packetTooShort, .delayOutOfRange .tooLarge, .delayOutOfRange .badSize]

/-- The step on a discard (R313, R362): the agent is gone and nothing else has changed; if there is none, it is refused. The
model's choices: the discard as an action and its refusal (log 6, 7), and that the result port keeps its last reply (log 8). -/
def Obligations.StepDiscardsAgent : Prop :=
  ∀ (s : State) (rest : List HostAction) (c : UnitClass) (k : Nat), s.pending = .discard c k :: rest →
    (hasAgent s c k = false → step s = .refused (.noInstance c k)) ∧
    (hasAgent s c k = true → ∃ t, step s = .next t ∧ hasAgent t c k = false ∧
      t.pending = rest ∧ t.itdTypeCode = s.itdTypeCode ∧ t.reply = s.reply ∧
      ∀ j, (c ≠ .ser ∨ j ≠ k → t.ser[j]? = s.ser[j]?) ∧ (c ≠ .i2c ∨ j ≠ k → t.i2c[j]? = s.i2c[j]?) ∧
        (c ≠ .spi ∨ j ≠ k → t.spi[j]? = s.spi[j]?) ∧ (c ≠ .sess ∨ j ≠ k → t.sess[j]? = s.sess[j]?))
end

