-- ==== Sys2Proof/Laws/Codec.lean ====
section
/-! SUPPORT. Byte order, named codes, the sealed frame: one lemma per function, so that proofs cite it. -/

namespace Sys2Proof

@[simp] theorem le16_bytes (v : U16) : le16 (v.extractLsb' 0 8) (v.extractLsb' 8 8) = v := by
  apply BitVec.eq_of_getLsbD_eq
  intro i hi
  simp only [le16, BitVec.getLsbD_append, BitVec.getLsbD_extractLsb']
  by_cases h : i < 8
  · simp [h]
  · have h8 : 8 + (i - 8) = i := by omega
    have hlt : i - 8 < 8 := by omega
    simp [h, h8, hlt]

theorem le16_toNat (lo hi : Byte) : (le16 lo hi).toNat = lo.toNat + 256 * hi.toNat := by
  have := lo.isLt
  simp only [le16, BitVec.toNat_append, Nat.shiftLeft_eq]
  rw [← Nat.shiftLeft_eq, ← Nat.shiftLeft_add_eq_or_of_lt this, Nat.shiftLeft_eq]
  omega

theorem le16_injective {a b c d : Byte} (h : le16 a b = le16 c d) : a = c ∧ b = d := by
  have h' := congrArg BitVec.toNat h
  rw [le16_toNat, le16_toNat] at h'
  have := a.isLt
  have := c.isLt
  constructor <;> apply BitVec.eq_of_toNat_eq <;> omega

@[simp] theorem le32_bytes (v : U32) :
    le32 (v.extractLsb' 0 8) (v.extractLsb' 8 8) (v.extractLsb' 16 8) (v.extractLsb' 24 8) = v := by
  apply BitVec.eq_of_getLsbD_eq
  intro i hi
  simp only [le32, BitVec.getLsbD_append, BitVec.getLsbD_extractLsb']
  by_cases h : i < 8
  · simp [h]
  · by_cases h2 : i - 8 < 8
    · have e : 8 + (i - 8) = i := by omega
      simp [h, h2, e]
    · by_cases h3 : i - 8 - 8 < 8
      · have e : 16 + (i - 8 - 8) = i := by omega
        simp [h, h2, h3, e]
      · have e : 24 + (i - 8 - 8 - 8) = i := by omega
        have hlt : i - 8 - 8 - 8 < 8 := by omega
        simp [h, h2, h3, hlt, e]

@[simp] theorem le16Bytes_length (v : U16) : (le16Bytes v).length = 2 := rfl
@[simp] theorem le32Bytes_length (v : U32) : (le32Bytes v).length = 4 := rfl

@[simp] theorem CommandCode.ofByte_code (c : CommandCode) : CommandCode.ofByte c.code = some c := by
  cases c <;> rfl

theorem CommandCode.ofByte_some {b : Byte} {c : CommandCode} (h : CommandCode.ofByte b = some c) : b = c.code := by
  have := List.find?_some h
  simpa using (beq_iff_eq.mp this).symm

theorem CommandCode.ofByte_none {b : Byte} : CommandCode.ofByte b = none ↔ b = 0x00 ∨ 6 ≤ b.toNat := by
  revert b
  decide

@[simp] theorem StatusCode.ofByte_code (c : StatusCode) : StatusCode.ofByte c.code = some c := by
  cases c <;> rfl

theorem StatusCode.ofByte_some {b : Byte} {c : StatusCode} (h : StatusCode.ofByte b = some c) : b = c.code := by
  have := List.find?_some h
  simpa using (beq_iff_eq.mp this).symm

theorem StatusCode.ofByte_none {b : Byte} : StatusCode.ofByte b = none ↔ b = 0x00 ∨ 6 ≤ b.toNat := by
  revert b
  decide

@[simp] theorem UnitClass.ofByte_code (u : UnitClass) : UnitClass.ofByte u.code = some u := by
  cases u <;> rfl

@[simp] theorem Op.ofByte_code (o : Op) : Op.ofByte o.code = some o := by
  cases o <;> rfl

theorem Op.ofByte_some {b : Byte} {o : Op} (h : Op.ofByte b = some o) : b = o.code := by
  have := List.find?_some h
  simpa using (beq_iff_eq.mp this).symm

@[simp] theorem ErrorKind.ofCodes_codes (e : ErrorKind) : ErrorKind.ofCodes e.code e.sub = some e := by
  rcases e with _ | _ | _ | _ | x | x | _ | x <;> first | rfl | (cases x <;> rfl)

@[simp] theorem ErrPhase.ofByte_code (p : ErrPhase) : ErrPhase.ofByte p.code = some p := by
  rcases p with _ | x | _ | _ <;> first | rfl | (cases x <;> rfl)

namespace Machine

/-- FRAME_OPEN on a frame of at least two bytes, written as payload and checksum bytes. -/
theorem frameOpen_append (p : Bytes) (lo hi : Byte) :
    frameOpen (p ++ [lo, hi]) = if csum p = le16 lo hi then .ok p else .error .checksumInvalid := by
  simp [frameOpen, slice, le16At, byteAt]

/-- FRAME_OPEN on a frame too short for a checksum. -/
theorem frameOpen_short {f : Bytes} (h : f.length < 2) : frameOpen f = .error (.framingError .tooShort) := by
  simp [frameOpen, h]

@[simp] theorem frameOpen_frameSeal (p : Bytes) : frameOpen (frameSeal p) = .ok p := by
  simp [frameSeal, le16Bytes, frameOpen_append]

/-- What FRAME_OPEN can do. -/
theorem frameOpen_cases (f : Bytes) :
    (f.length < 2 ∧ frameOpen f = .error (.framingError .tooShort)) ∨
      ∃ p lo hi, f = p ++ [lo, hi] ∧
        ((csum p = le16 lo hi ∧ frameOpen f = .ok p) ∨
          (csum p ≠ le16 lo hi ∧ frameOpen f = .error .checksumInvalid)) := by
  by_cases h : f.length < 2
  · exact .inl ⟨h, frameOpen_short h⟩
  · right
    obtain ⟨g, hi, rfl⟩ := f.eq_nil_or_concat.resolve_left (by rintro rfl; simp at h)
    obtain ⟨p, lo, rfl⟩ := g.eq_nil_or_concat.resolve_left (by rintro rfl; simp at h)
    refine ⟨p, lo, hi, by simp, ?_⟩
    have e : (p.concat lo).concat hi = p ++ [lo, hi] := by simp
    rw [e, frameOpen_append]
    by_cases hc : csum p = le16 lo hi
    · exact .inl ⟨hc, by simp [hc]⟩
    · exact .inr ⟨hc, by simp [hc]⟩

end Machine

end Sys2Proof
end

