-- ==== Sys2Proof/Laws/Decode.lean ====
section
/-! SUPPORT. One lemma per operand reader: it reads back what its writer put, whatever bytes follow. -/

namespace Sys2Proof

@[simp] theorem andThen_ok {α β : Type} (a : α) (r : Bytes) (f : α → Bytes → Parse β) :
    andThen (.ok (a, r)) f = f a r := rfl

@[simp] theorem andThen_error {α β : Type} (e : DecodeError) (f : α → Bytes → Parse β) :
    andThen (.error e) f = .error e := rfl

@[simp] theorem getByte_cons (b : Byte) (r : Bytes) : getByte (b :: r) = .ok (b, r) := rfl

@[simp] theorem getByte_nil : getByte [] = .error .truncated := rfl

@[simp] theorem getFlag_putFlag (b : Bool) (r : Bytes) : getFlag (putFlag b ++ r) = .ok (b, r) := by
  cases b <;> rfl

@[simp] theorem getDir_putDir (d : Dir) (r : Bytes) : getDir (putDir d ++ r) = .ok (d, r) := by
  cases d <;> rfl

@[simp] theorem getRw_putRw (x : Rw) (r : Bytes) : getRw (putRw x ++ r) = .ok (x, r) := by
  cases x <;> rfl

@[simp] theorem getU16_le16Bytes (v : U16) (r : Bytes) : getU16 (le16Bytes v ++ r) = .ok (v, r) := by
  simp [getU16, le16Bytes]

@[simp] theorem getU32_le32Bytes (v : U32) (r : Bytes) : getU32 (le32Bytes v ++ r) = .ok (v, r) := by
  simp [getU32, le32Bytes]

/-- Enough digits were written for the number they were written for. -/
theorem getNat_putDigits (fuel n : Nat) (h : n ≤ fuel) (r : Bytes) : getNat (putDigits fuel n ++ r) = .ok (n, r) := by
  induction fuel generalizing n with
  | zero =>
    obtain rfl : n = 0 := by omega
    simp [putDigits, getNat]
  | succ fuel ih =>
    by_cases hn : n < 128
    · simp [putDigits, hn, getNat, Nat.mod_eq_of_lt (show n < 256 by omega)]
    · have hd : n / 128 ≤ fuel := by omega
      have hm : (n % 128 + 128) % 256 = n % 128 + 128 := by omega
      have hnot : ¬ (n % 128 + 128 < 128) := by omega
      simp only [putDigits, hn, if_false, List.cons_append, getNat, BitVec.toNat_ofNat,
        show (2 : Nat) ^ 8 = 256 from rfl, hm, hnot, ih _ hd, andThen_ok, Except.ok.injEq, Prod.mk.injEq, and_true]
      omega

@[simp] theorem getNat_putNat (n : Nat) (r : Bytes) : getNat (putNat n ++ r) = .ok (n, r) :=
  getNat_putDigits n n le_rfl r

@[simp] theorem getBytes_putBytes (b r : Bytes) : getBytes (putBytes b ++ r) = .ok (b, r) := by
  simp [getBytes, putBytes, List.append_assoc]

@[simp] theorem getCommand_code (c : CommandCode) (r : Bytes) : getCommand (c.code :: r) = .ok (c, r) := by
  simp [getCommand]

@[simp] theorem getStatus_code (c : StatusCode) (r : Bytes) : getStatus (c.code :: r) = .ok (c, r) := by
  simp [getStatus]

@[simp] theorem getSeq_setWidth (x : BitVec 5) (r : Bytes) : getSeq (x.setWidth 8 :: r) = .ok (x, r) := by
  have h : (x.setWidth 8).toNat < 32 := by simp; omega
  have e : (x.setWidth 8).setWidth 5 = x := by apply BitVec.eq_of_toNat_eq; simp
  simp only [getSeq, getByte_cons, andThen_ok, h, if_true, e]

@[simp] theorem getAddr_setWidth (x : BitVec 7) (r : Bytes) : getAddr (x.setWidth 8 :: r) = .ok (x, r) := by
  have h : (x.setWidth 8).toNat < 128 := by simp; omega
  have e : (x.setWidth 8).setWidth 7 = x := by apply BitVec.eq_of_toNat_eq; simp
  simp only [getAddr, getByte_cons, andThen_ok, h, if_true, e]

@[simp] theorem getOptByte_putOptByte (x : Option Byte) (r : Bytes) : getOptByte (putOptByte x ++ r) = .ok (x, r) := by
  cases x <;> simp [getOptByte, putOptByte, getFlag]

@[simp] theorem getOptU32_putOptU32 (x : Option U32) (r : Bytes) : getOptU32 (putOptU32 x ++ r) = .ok (x, r) := by
  cases x <;> simp [getOptU32, putOptU32, getFlag]

@[simp] theorem getVersion_putVersion (x : Version) (r : Bytes) : getVersion (putVersion x ++ r) = .ok (x, r) := by
  simp [getVersion, putVersion]

@[simp] theorem getOverrides_putOverrides (l : List (CommandCode × U16)) (r : Bytes) :
    getOverrides l.length (putOverrides l ++ r) = .ok (l, r) := by
  induction l with
  | nil => rfl
  | cons p l ih =>
    simp only [putOverrides] at ih
    simp [getOverrides, putOverrides, List.append_assoc, ih]

@[simp] theorem getClientInfo_putClientInfo (ci : ClientInfo) (r : Bytes) :
    getClientInfo (putClientInfo ci ++ r) = .ok (ci, r) := by
  simp [getClientInfo, putClientInfo, List.append_assoc]

@[simp] theorem getValue_putValue (v : Value) (r : Bytes) : getValue (putValue v ++ r) = .ok (v, r) := by
  cases v <;> simp [getValue, putValue]

@[simp] theorem getResult_putResult (x : Result) (r : Bytes) : getResult (putResult x ++ r) = .ok (x, r) := by
  cases x <;> simp [getResult, putResult, List.append_assoc, getErrorKind, getErrPhase]

end Sys2Proof
end

