-- ==== Sys2Proof/Laws/State.lean ====
section
/-! SUPPORT. One lemma per field per update of State, and reading one agent after writing one. -/

namespace Sys2Proof.Machine

variable (s : State)

@[simp] theorem State.emit_itdTypeCode (r : Reply) : (s.emit r).itdTypeCode = s.itdTypeCode := rfl
@[simp] theorem State.emit_ser (r : Reply) : (s.emit r).ser = s.ser := rfl
@[simp] theorem State.emit_i2c (r : Reply) : (s.emit r).i2c = s.i2c := rfl
@[simp] theorem State.emit_spi (r : Reply) : (s.emit r).spi = s.spi := rfl
@[simp] theorem State.emit_sess (r : Reply) : (s.emit r).sess = s.sess := rfl
@[simp] theorem State.emit_pending (r : Reply) : (s.emit r).pending = s.pending := rfl
@[simp] theorem State.emit_reply (r : Reply) : (s.emit r).reply = r := rfl

@[simp] theorem State.withPending_itdTypeCode (p : List HostAction) : (s.withPending p).itdTypeCode = s.itdTypeCode := rfl
@[simp] theorem State.withPending_ser (p : List HostAction) : (s.withPending p).ser = s.ser := rfl
@[simp] theorem State.withPending_i2c (p : List HostAction) : (s.withPending p).i2c = s.i2c := rfl
@[simp] theorem State.withPending_spi (p : List HostAction) : (s.withPending p).spi = s.spi := rfl
@[simp] theorem State.withPending_sess (p : List HostAction) : (s.withPending p).sess = s.sess := rfl
@[simp] theorem State.withPending_pending (p : List HostAction) : (s.withPending p).pending = p := rfl
@[simp] theorem State.withPending_reply (p : List HostAction) : (s.withPending p).reply = s.reply := rfl

@[simp] theorem State.setSer_itdTypeCode (k : Byte) (u : SerFramer) : (s.setSer k u).itdTypeCode = s.itdTypeCode := rfl
@[simp] theorem State.setSer_ser (k : Byte) (u : SerFramer) : (s.setSer k u).ser = s.ser.set k.toNat (some u) := rfl
@[simp] theorem State.setSer_i2c (k : Byte) (u : SerFramer) : (s.setSer k u).i2c = s.i2c := rfl
@[simp] theorem State.setSer_spi (k : Byte) (u : SerFramer) : (s.setSer k u).spi = s.spi := rfl
@[simp] theorem State.setSer_sess (k : Byte) (u : SerFramer) : (s.setSer k u).sess = s.sess := rfl
@[simp] theorem State.setSer_pending (k : Byte) (u : SerFramer) : (s.setSer k u).pending = s.pending := rfl
@[simp] theorem State.setSer_reply (k : Byte) (u : SerFramer) : (s.setSer k u).reply = s.reply := rfl

@[simp] theorem State.setI2c_itdTypeCode (k : Byte) (u : I2cFramer) : (s.setI2c k u).itdTypeCode = s.itdTypeCode := rfl
@[simp] theorem State.setI2c_ser (k : Byte) (u : I2cFramer) : (s.setI2c k u).ser = s.ser := rfl
@[simp] theorem State.setI2c_i2c (k : Byte) (u : I2cFramer) : (s.setI2c k u).i2c = s.i2c.set k.toNat (some u) := rfl
@[simp] theorem State.setI2c_spi (k : Byte) (u : I2cFramer) : (s.setI2c k u).spi = s.spi := rfl
@[simp] theorem State.setI2c_sess (k : Byte) (u : I2cFramer) : (s.setI2c k u).sess = s.sess := rfl
@[simp] theorem State.setI2c_pending (k : Byte) (u : I2cFramer) : (s.setI2c k u).pending = s.pending := rfl
@[simp] theorem State.setI2c_reply (k : Byte) (u : I2cFramer) : (s.setI2c k u).reply = s.reply := rfl

@[simp] theorem State.setSpi_itdTypeCode (k : Byte) (u : SpiFramer) : (s.setSpi k u).itdTypeCode = s.itdTypeCode := rfl
@[simp] theorem State.setSpi_ser (k : Byte) (u : SpiFramer) : (s.setSpi k u).ser = s.ser := rfl
@[simp] theorem State.setSpi_i2c (k : Byte) (u : SpiFramer) : (s.setSpi k u).i2c = s.i2c := rfl
@[simp] theorem State.setSpi_spi (k : Byte) (u : SpiFramer) : (s.setSpi k u).spi = s.spi.set k.toNat (some u) := rfl
@[simp] theorem State.setSpi_sess (k : Byte) (u : SpiFramer) : (s.setSpi k u).sess = s.sess := rfl
@[simp] theorem State.setSpi_pending (k : Byte) (u : SpiFramer) : (s.setSpi k u).pending = s.pending := rfl
@[simp] theorem State.setSpi_reply (k : Byte) (u : SpiFramer) : (s.setSpi k u).reply = s.reply := rfl

@[simp] theorem State.setSess_itdTypeCode (k : Byte) (u : SessionUnit) : (s.setSess k u).itdTypeCode = s.itdTypeCode := rfl
@[simp] theorem State.setSess_ser (k : Byte) (u : SessionUnit) : (s.setSess k u).ser = s.ser := rfl
@[simp] theorem State.setSess_i2c (k : Byte) (u : SessionUnit) : (s.setSess k u).i2c = s.i2c := rfl
@[simp] theorem State.setSess_spi (k : Byte) (u : SessionUnit) : (s.setSess k u).spi = s.spi := rfl
@[simp] theorem State.setSess_sess (k : Byte) (u : SessionUnit) : (s.setSess k u).sess = s.sess.set k.toNat (some u) := rfl
@[simp] theorem State.setSess_pending (k : Byte) (u : SessionUnit) : (s.setSess k u).pending = s.pending := rfl
@[simp] theorem State.setSess_reply (k : Byte) (u : SessionUnit) : (s.setSess k u).reply = s.reply := rfl

@[simp] theorem State.emit_serAt (r : Reply) (j : Byte) : (s.emit r).serAt j = s.serAt j := rfl
@[simp] theorem State.withPending_serAt (p : List HostAction) (j : Byte) : (s.withPending p).serAt j = s.serAt j := rfl
@[simp] theorem State.setI2c_serAt (k : Byte) (u : I2cFramer) (j : Byte) : (s.setI2c k u).serAt j = s.serAt j := rfl
@[simp] theorem State.setSpi_serAt (k : Byte) (u : SpiFramer) (j : Byte) : (s.setSpi k u).serAt j = s.serAt j := rfl
@[simp] theorem State.setSess_serAt (k : Byte) (u : SessionUnit) (j : Byte) : (s.setSess k u).serAt j = s.serAt j := rfl

/-- Writing agent k and reading it back. -/
theorem State.setSer_serAt_same (k : Byte) (u v : SerFramer) (h : s.serAt k = some v) :
    (s.setSer k u).serAt k = some u := by
  have hk : k.toNat < s.ser.length := by
    by_contra hn
    simp [State.serAt, List.getElem?_eq_none (Nat.le_of_not_lt hn)] at h
  simp [State.serAt, hk]

/-- Writing agent k leaves every other one. -/
theorem State.setSer_serAt_other (k j : Byte) (u : SerFramer) (h : k.toNat ≠ j.toNat) :
    (s.setSer k u).serAt j = s.serAt j := by
  simp [State.serAt, List.getElem?_set_ne h]

@[simp] theorem State.emit_i2cAt (r : Reply) (j : Byte) : (s.emit r).i2cAt j = s.i2cAt j := rfl
@[simp] theorem State.withPending_i2cAt (p : List HostAction) (j : Byte) : (s.withPending p).i2cAt j = s.i2cAt j := rfl
@[simp] theorem State.setSer_i2cAt (k : Byte) (u : SerFramer) (j : Byte) : (s.setSer k u).i2cAt j = s.i2cAt j := rfl
@[simp] theorem State.setSpi_i2cAt (k : Byte) (u : SpiFramer) (j : Byte) : (s.setSpi k u).i2cAt j = s.i2cAt j := rfl
@[simp] theorem State.setSess_i2cAt (k : Byte) (u : SessionUnit) (j : Byte) : (s.setSess k u).i2cAt j = s.i2cAt j := rfl

/-- Writing agent k and reading it back. -/
theorem State.setI2c_i2cAt_same (k : Byte) (u v : I2cFramer) (h : s.i2cAt k = some v) :
    (s.setI2c k u).i2cAt k = some u := by
  have hk : k.toNat < s.i2c.length := by
    by_contra hn
    simp [State.i2cAt, List.getElem?_eq_none (Nat.le_of_not_lt hn)] at h
  simp [State.i2cAt, hk]

/-- Writing agent k leaves every other one. -/
theorem State.setI2c_i2cAt_other (k j : Byte) (u : I2cFramer) (h : k.toNat ≠ j.toNat) :
    (s.setI2c k u).i2cAt j = s.i2cAt j := by
  simp [State.i2cAt, List.getElem?_set_ne h]

@[simp] theorem State.emit_spiAt (r : Reply) (j : Byte) : (s.emit r).spiAt j = s.spiAt j := rfl
@[simp] theorem State.withPending_spiAt (p : List HostAction) (j : Byte) : (s.withPending p).spiAt j = s.spiAt j := rfl
@[simp] theorem State.setSer_spiAt (k : Byte) (u : SerFramer) (j : Byte) : (s.setSer k u).spiAt j = s.spiAt j := rfl
@[simp] theorem State.setI2c_spiAt (k : Byte) (u : I2cFramer) (j : Byte) : (s.setI2c k u).spiAt j = s.spiAt j := rfl
@[simp] theorem State.setSess_spiAt (k : Byte) (u : SessionUnit) (j : Byte) : (s.setSess k u).spiAt j = s.spiAt j := rfl

/-- Writing agent k and reading it back. -/
theorem State.setSpi_spiAt_same (k : Byte) (u v : SpiFramer) (h : s.spiAt k = some v) :
    (s.setSpi k u).spiAt k = some u := by
  have hk : k.toNat < s.spi.length := by
    by_contra hn
    simp [State.spiAt, List.getElem?_eq_none (Nat.le_of_not_lt hn)] at h
  simp [State.spiAt, hk]

/-- Writing agent k leaves every other one. -/
theorem State.setSpi_spiAt_other (k j : Byte) (u : SpiFramer) (h : k.toNat ≠ j.toNat) :
    (s.setSpi k u).spiAt j = s.spiAt j := by
  simp [State.spiAt, List.getElem?_set_ne h]

@[simp] theorem State.emit_sessAt (r : Reply) (j : Byte) : (s.emit r).sessAt j = s.sessAt j := rfl
@[simp] theorem State.withPending_sessAt (p : List HostAction) (j : Byte) : (s.withPending p).sessAt j = s.sessAt j := rfl
@[simp] theorem State.setSer_sessAt (k : Byte) (u : SerFramer) (j : Byte) : (s.setSer k u).sessAt j = s.sessAt j := rfl
@[simp] theorem State.setI2c_sessAt (k : Byte) (u : I2cFramer) (j : Byte) : (s.setI2c k u).sessAt j = s.sessAt j := rfl
@[simp] theorem State.setSpi_sessAt (k : Byte) (u : SpiFramer) (j : Byte) : (s.setSpi k u).sessAt j = s.sessAt j := rfl

/-- Writing agent k and reading it back. -/
theorem State.setSess_sessAt_same (k : Byte) (u v : SessionUnit) (h : s.sessAt k = some v) :
    (s.setSess k u).sessAt k = some u := by
  have hk : k.toNat < s.sess.length := by
    by_contra hn
    simp [State.sessAt, List.getElem?_eq_none (Nat.le_of_not_lt hn)] at h
  simp [State.sessAt, hk]

/-- Writing agent k leaves every other one. -/
theorem State.setSess_sessAt_other (k j : Byte) (u : SessionUnit) (h : k.toNat ≠ j.toNat) :
    (s.setSess k u).sessAt j = s.sessAt j := by
  simp [State.sessAt, List.getElem?_set_ne h]

/-- A second reply replaces the first. -/
@[simp] theorem State.emit_emit (r r' : Reply) : (s.emit r).emit r' = s.emit r' := rfl

end Sys2Proof.Machine
end

