-- ==== Sys2Proof/Laws/Ops.lean ====
section
/-! SUPPORT. What each shared operation of Machine/Ops.lean can do, said once. -/

namespace Sys2Proof.Machine

variable {s t : State} {k : Byte}

/-- A pure operation writes the result port and nothing else. -/
theorem answer_next {r : Result} : answer s r = .next t ↔ t = s.emit (.result r) := by
  simp only [answer, Host.Outcome.next.injEq]
  exact eq_comm

theorem stepSer_of_some {u : SerFramer} {f : SerFramer → SerFramer × Result} (h : s.serAt k = some u) :
    stepSer s k f = .next ((s.setSer k (f u).1).emit (.result (f u).2)) := by
  simp [stepSer, h]

theorem stepSer_next {f : SerFramer → SerFramer × Result} (h : stepSer s k f = .next t) :
    ∃ u, s.serAt k = some u ∧ t = (s.setSer k (f u).1).emit (.result (f u).2) := by
  unfold stepSer at h
  split at h
  · cases h
  · next u hu =>
    cases h
    exact ⟨u, hu, rfl⟩

theorem stepSer_ne_fault {f : SerFramer → SerFramer × Result} (e : Fault) : stepSer s k f ≠ .fault e := by
  unfold stepSer
  split <;> simp

theorem stepI2c_of_some {u u' : I2cFramer} {r : Result} {f : I2cFramer → Option (I2cFramer × Result)}
    (h : s.i2cAt k = some u) (hf : f u = some (u', r)) :
    stepI2c s k f = .next ((s.setI2c k u').emit (.result r)) := by
  simp [stepI2c, h, hf]

theorem stepI2c_next {f : I2cFramer → Option (I2cFramer × Result)} (h : stepI2c s k f = .next t) :
    ∃ u u' r, s.i2cAt k = some u ∧ f u = some (u', r) ∧ t = (s.setI2c k u').emit (.result r) := by
  unfold stepI2c at h
  split at h
  · cases h
  · next u hu =>
    split at h
    · cases h
    · next u' r hf =>
      cases h
      exact ⟨u, u', r, hu, hf, rfl⟩

theorem stepI2c_fault {f : I2cFramer → Option (I2cFramer × Result)} {e : Fault} (h : stepI2c s k f = .fault e) :
    ∃ u, s.i2cAt k = some u ∧ f u = none := by
  unfold stepI2c at h
  split at h
  · cases h
  · next u hu =>
    split at h
    · next hf => exact ⟨u, hu, hf⟩
    · cases h

theorem stepSpi_of_some {u : SpiFramer} {f : SpiFramer → SpiFramer × Result} (h : s.spiAt k = some u) :
    stepSpi s k f = .next ((s.setSpi k (f u).1).emit (.result (f u).2)) := by
  simp [stepSpi, h]

theorem stepSpi_next {f : SpiFramer → SpiFramer × Result} (h : stepSpi s k f = .next t) :
    ∃ u, s.spiAt k = some u ∧ t = (s.setSpi k (f u).1).emit (.result (f u).2) := by
  unfold stepSpi at h
  split at h
  · cases h
  · next u hu =>
    cases h
    exact ⟨u, hu, rfl⟩

theorem stepSpi_ne_fault {f : SpiFramer → SpiFramer × Result} (e : Fault) : stepSpi s k f ≠ .fault e := by
  unfold stepSpi
  split <;> simp

theorem stepSess_of_some {u : SessionUnit} {f : SessionUnit → SessionUnit × Reply} (h : s.sessAt k = some u) :
    stepSess s k f = .next ((s.setSess k (f u).1).emit (f u).2) := by
  simp [stepSess, h]

theorem stepSess_next {f : SessionUnit → SessionUnit × Reply} (h : stepSess s k f = .next t) :
    ∃ u, s.sessAt k = some u ∧ t = (s.setSess k (f u).1).emit (f u).2 := by
  unfold stepSess at h
  split at h
  · cases h
  · next u hu =>
    cases h
    exact ⟨u, hu, rfl⟩

theorem stepSess_ne_fault {f : SessionUnit → SessionUnit × Reply} (e : Fault) : stepSess s k f ≠ .fault e := by
  unfold stepSess
  split <;> simp

/-- What a slot holds after `putSlot`. -/
theorem putSlot_same {α : Type} (l : List (Option α)) (k : Nat) (u : α) : (putSlot l k u)[k]? = some (some u) := by
  unfold putSlot
  split
  · next h => simp [h]
  · next h =>
    have e : (l ++ List.replicate (k - l.length) none).length = k := by simp; omega
    rw [List.getElem?_append_right (by omega), e]
    simp

/-- `putSlot` leaves every other agent. -/
theorem putSlot_other {α : Type} (l : List (Option α)) {k j : Nat} (u : α) (h : j ≠ k) :
    (putSlot l k u)[j]?.join = l[j]?.join := by
  unfold putSlot
  split
  · simp [List.getElem?_set_ne (Ne.symm h)]
  · next hk =>
    have e : (l ++ List.replicate (k - l.length) none).length = k := by simp; omega
    rcases Nat.lt_or_ge j k with hj | hj
    · rw [List.getElem?_append_left (by omega)]
      rcases Nat.lt_or_ge j l.length with hl | hl
      · rw [List.getElem?_append_left hl]
      · rw [List.getElem?_append_right hl, List.getElem?_eq_none (l := l) hl, List.getElem?_replicate]
        split <;> rfl
    · rw [List.getElem?_eq_none (by simp; omega), List.getElem?_eq_none (by omega)]

/-- Every agent after `putSlot` is the new one or was there. -/
theorem mem_putSlot {α : Type} {l : List (Option α)} {k : Nat} {u v : α} (h : some v ∈ putSlot l k u) :
    v = u ∨ some v ∈ l := by
  unfold putSlot at h
  split at h
  · rcases List.mem_or_eq_of_mem_set h with h | h
    · exact .inr h
    · exact .inl (Option.some.inj h)
  · simp only [List.mem_append, List.mem_replicate, List.mem_singleton, Option.some.injEq, reduceCtorEq, and_false,
      or_false] at h
    exact h.symm

/-- A creation makes one agent in its reset state, or the codec with its P5, and does nothing else. -/
theorem create_next {c : Creation} (h : create s c = .next t) :
    creationLegal c = true ∧
      ((∃ k dir cap, c = .ser k dir cap ∧ t = { s with ser := putSlot s.ser k (SerFramer.reset dir cap) }) ∨
       (∃ k adjust m, c = .i2c k adjust m ∧ t = { s with i2c := putSlot s.i2c k (I2cFramer.reset adjust m) }) ∨
       (∃ k adjust, c = .spi k adjust ∧ t = { s with spi := putSlot s.spi k (SpiFramer.reset adjust) }) ∨
       (∃ k, c = .sess k ∧ t = { s with sess := putSlot s.sess k SessionUnit.reset }) ∨
       (∃ p5, c = .codec p5 ∧ t = { s with itdTypeCode := p5 })) := by
  unfold create at h
  split at h
  · next hc =>
    refine ⟨hc, ?_⟩
    cases c with
    | ser k dir cap => cases h; exact .inl ⟨k, dir, cap, rfl, rfl⟩
    | i2c k adjust m => cases h; exact .inr (.inl ⟨k, adjust, m, rfl, rfl⟩)
    | spi k adjust => cases h; exact .inr (.inr (.inl ⟨k, adjust, rfl, rfl⟩))
    | sess k => cases h; exact .inr (.inr (.inr (.inl ⟨k, rfl, rfl⟩)))
    | codec p5 => cases h; exact .inr (.inr (.inr (.inr ⟨p5, rfl, rfl⟩)))
  · cases h

theorem create_ne_fault {c : Creation} (e : Fault) : create s c ≠ .fault e := by
  unfold create
  split
  · cases c <;> simp
  · simp

/-- A discard empties the slot of an agent that is there, and does nothing else. -/
theorem discardAgent_next {c : UnitClass} {n : Nat} (h : discardAgent s c n = .next t) :
    hasAgent s c n = true ∧
      ((c = .ser ∧ t = { s with ser := s.ser.set n none }) ∨ (c = .i2c ∧ t = { s with i2c := s.i2c.set n none }) ∨
       (c = .spi ∧ t = { s with spi := s.spi.set n none }) ∨ (c = .sess ∧ t = { s with sess := s.sess.set n none })) := by
  unfold discardAgent at h
  split at h
  · next hc =>
    refine ⟨hc, ?_⟩
    cases c <;> cases h
    · exact .inl ⟨rfl, rfl⟩
    · exact .inr (.inl ⟨rfl, rfl⟩)
    · exact .inr (.inr (.inl ⟨rfl, rfl⟩))
    · exact .inr (.inr (.inr ⟨rfl, rfl⟩))
  · cases h

theorem discardAgent_ne_fault {c : UnitClass} {n : Nat} (e : Fault) : discardAgent s c n ≠ .fault e := by
  unfold discardAgent
  split
  · cases c <;> simp
  · simp

/-- After a discard the slot is empty and every other one is as it was. -/
theorem join_set_none {α : Type} (l : List (Option α)) (n j : Nat) :
    (l.set n none)[j]?.join = if j = n then none else l[j]?.join := by
  split
  · next h =>
    subst h
    simp only [List.getElem?_set]
    split_ifs <;> simp_all
  · next h => rw [List.getElem?_set_ne (Ne.symm h)]

end Sys2Proof.Machine
end

