-- ==== Sys2Proof/Laws/Exec.lean ====
section
/-! SUPPORT. What exec can do, over all instructions: the result port alone, or one step of the one agent it names. -/

namespace Sys2Proof.Machine

/-- The ways an instruction `i` can take `s` to a next state `t`. -/
inductive Effect (i : Instr) (s t : State) : Prop where
  | pure (r : Result) (ht : target i = none) (h : t = s.emit (.result r))
  | ser (k : Byte) (f : SerFramer → SerFramer × Result) (u : SerFramer)
      (ht : target i = some (.ser, k.toNat)) (hu : s.serAt k = some u) (hf : f = resetSer ∨ ∃ b, f = serByte b)
      (h : t = (s.setSer k (f u).1).emit (.result (f u).2))
  | i2c (k : Byte) (f : I2cFramer → Option (I2cFramer × Result)) (u u' : I2cFramer) (r : Result)
      (ht : target i = some (.i2c, k.toNat)) (hu : s.i2cAt k = some u)
      (hf : f = resetI2c ∨ ∃ rw d, f = i2cTxn rw d) (hr : f u = some (u', r))
      (h : t = (s.setI2c k u').emit (.result r))
  | spi (k : Byte) (f : SpiFramer → SpiFramer × Result) (u : SpiFramer)
      (ht : target i = some (.spi, k.toNat)) (hu : s.spiAt k = some u) (hf : f = resetSpi ∨ ∃ a b, f = spiTxn a b)
      (h : t = (s.setSpi k (f u).1).emit (.result (f u).2))
  | sess (k : Byte) (f : SessionUnit → SessionUnit × Reply) (u : SessionUnit)
      (ht : target i = some (.sess, k.toNat)) (hu : s.sessAt k = some u)
      (hf : f = resetSess ∨ ∃ r, f = sessionStep s.itdTypeCode r)
      (h : t = (s.setSess k (f u).1).emit (f u).2)

/-- If an instruction answers a next state, it is a pure answer, or one step of its target agent. -/
theorem exec_next {i : Instr} {s t : State} (h : exec i s = .next t) : Effect i s t := by
  have ser {k : Byte} {f} (ht : target i = some (.ser, k.toNat)) (hf : f = resetSer ∨ ∃ b, f = serByte b)
      (h : stepSer s k f = .next t) : Effect i s t := by
    obtain ⟨u, hu, e⟩ := stepSer_next h
    exact .ser k f u ht hu hf e
  have i2c {k : Byte} {f} (ht : target i = some (.i2c, k.toNat)) (hf : f = resetI2c ∨ ∃ rw d, f = i2cTxn rw d)
      (h : stepI2c s k f = .next t) : Effect i s t := by
    obtain ⟨u, u', r, hu, hfu, e⟩ := stepI2c_next h
    exact .i2c k f u u' r ht hu hf hfu e
  have spi {k : Byte} {f} (ht : target i = some (.spi, k.toNat)) (hf : f = resetSpi ∨ ∃ a b, f = spiTxn a b)
      (h : stepSpi s k f = .next t) : Effect i s t := by
    obtain ⟨u, hu, e⟩ := stepSpi_next h
    exact .spi k f u ht hu hf e
  have sess {k : Byte} {f} (ht : target i = some (.sess, k.toNat))
      (hf : f = resetSess ∨ ∃ r, f = sessionStep s.itdTypeCode r) (h : stepSess s k f = .next t) : Effect i s t := by
    obtain ⟨u, hu, e⟩ := stepSess_next h
    exact .sess k f u ht hu hf e
  cases i with
  | serByte k b => exact ser rfl (.inr ⟨b, rfl⟩) h
  | serStart k => exact ser rfl (.inr ⟨startCode, rfl⟩) h
  | serEnd k => exact ser rfl (.inr ⟨endCode, rfl⟩) h
  | i2cTxn k rw addr data => exact i2c rfl (.inr ⟨rw, data, rfl⟩) h
  | i2cCmdReady k hi sur => exact i2c rfl (.inr ⟨.read, _, rfl⟩) h
  | i2cRspReady k hi lo sur => exact i2c rfl (.inr ⟨.read, _, rfl⟩) h
  | i2cBit7 k lo sur => exact i2c rfl (.inr ⟨.read, _, rfl⟩) h
  | spiTxn k mosi miso => exact spi rfl (.inr ⟨mosi, miso, rfl⟩) h
  | spiWrite k rest miso => exact spi rfl (.inr ⟨_, _, rfl⟩) h
  | spiRead k rest miso => exact spi rfl (.inr ⟨_, _, rfl⟩) h
  | spiTagLen k rest dummy body => exact spi rfl (.inr ⟨_, _, rfl⟩) h
  | spiTagRsp k rest dummy body => exact spi rfl (.inr ⟨_, _, rfl⟩) h
  | sessionResult k r => exact sess rfl (.inr ⟨r, rfl⟩) h
  | framerReset c k =>
    simp only [exec, execFramerReset] at h
    cases hc : UnitClass.ofByte c with
    | none => simp [hc] at h
    | some c' =>
      have ht : target (.framerReset c k) = some (c', k.toNat) := by simp [target, hc]
      cases c' <;> simp only [hc] at h
      · exact ser ht (.inl rfl) h
      · exact i2c ht (.inl rfl) h
      · exact spi ht (.inl rfl) h
      · exact sess ht (.inl rfl) h
  | ciEncode ci =>
    simp only [exec, execCiEncode] at h
    split at h
    · exact .pure _ rfl (answer_next.mp h)
    · cases h
  | _ => exact .pure _ rfl (answer_next.mp h)

end Sys2Proof.Machine
end

