-- ==== Sys2Proof/Laws/PerInstr.lean ====
section
/-! SUPPORT. A family of facts about every instruction as syntax. EncodedHead: the bytes of an instruction hold the fixed
bits of its row of spec/opcode_table.json (`match` under `mask`, the row's own number order, R74). -/

namespace Sys2Proof.Laws

/-- Fixed bits of a row: at a byte index, the bits under a mask have a value. -/
structure FixedBits where
  index : Nat
  mask  : Byte
  value : Byte

/-- The fixed bits of the row of an instruction; P5 gives the delay record's type byte (R80). -/
def rowFixed (p5 : Byte) (i : Instr) : List FixedBits :=
  match i with
  | .csum _ => [⟨0, 0xFF, 0x01⟩]
  | .csumVerify _ _ => [⟨0, 0xFF, 0x02⟩]
  | .frameSeal _ => [⟨0, 0xFF, 0x03⟩]
  | .frameOpen _ => [⟨0, 0xFF, 0x04⟩]
  | .cmdDecode _ => [⟨0, 0xFF, 0x10⟩]
  | .cmdEncode _ _ _ _ => [⟨0, 0xFF, 0x11⟩]
  | .stsDecode _ => [⟨0, 0xFF, 0x12⟩]
  | .stsEncode _ _ _ _ => [⟨0, 0xFF, 0x13⟩]
  | .ciDecode _ => [⟨0, 0xFF, 0x20⟩]
  | .ciEncode _ => [⟨0, 0xFF, 0x21⟩]
  | .ciSetDefaultTimeouts _ => [⟨0, 0xFF, 0x22⟩]
  | .itdFromNs _ => [⟨0, 0xFF, 0x28⟩]
  | .itdDecode _ => [⟨0, 0xFF, 0x29⟩]
  | .itdEncode _ => [⟨0, 0xFF, 0x2A⟩]
  | .serEscape _ => [⟨0, 0xFF, 0x30⟩]
  | .serUnescape _ => [⟨0, 0xFF, 0x31⟩]
  | .serFrameEncode _ => [⟨0, 0xFF, 0x32⟩]
  | .serFrameDecode _ _ => [⟨0, 0xFF, 0x33⟩]
  | .serByte _ _ => [⟨0, 0xFF, 0x34⟩]
  | .i2cTxn _ _ _ _ => [⟨0, 0xFF, 0x40⟩]
  | .spiTxn _ _ _ => [⟨0, 0xFF, 0x50⟩]
  | .sessionResult _ _ => [⟨0, 0xFF, 0x60⟩]
  | .framerReset _ _ => [⟨0, 0xFF, 0x70⟩]
  | .cmdGetClientInfo _ _ _ _ => [⟨1, 0xFF, 0x01⟩]
  | .cmdStartTransfer _ _ _ _ => [⟨1, 0xFF, 0x02⟩]
  | .cmdWriteChunk _ _ _ _ => [⟨1, 0xFF, 0x03⟩]
  | .cmdGetImageState _ _ _ _ => [⟨1, 0xFF, 0x04⟩]
  | .cmdEndTransfer _ _ _ _ => [⟨1, 0xFF, 0x05⟩]
  | .stsSuccess _ _ _ _ _ => [⟨1, 0xFF, 0x01⟩]
  | .stsNotSupported _ _ _ _ _ => [⟨1, 0xFF, 0x02⟩]
  | .stsNotAuthorized _ _ _ _ _ => [⟨1, 0xFF, 0x03⟩]
  | .stsPacketTransportFailure _ _ _ _ _ => [⟨1, 0xFF, 0x04⟩]
  | .stsAbortFileTransfer _ _ _ _ _ => [⟨1, 0xFF, 0x05⟩]
  | .tlvProtocolVersion _ _ => [⟨0, 0xFF, 0x01⟩]
  | .tlvBufferInfo _ _ => [⟨0, 0xFF, 0x02⟩]
  | .tlvCommandTimeouts _ _ => [⟨0, 0xFF, 0x03⟩]
  | .tlvInterTransactionDelay _ _ => [⟨0, 0xFF, p5⟩]
  | .serStart _ => [⟨0, 0xFF, 0x56⟩]
  | .serEnd _ => [⟨0, 0xFF, 0x9E⟩]
  | .serEsc _ => [⟨0, 0xFF, 0xCC⟩]
  | .serEsc56 _ => [⟨0, 0xFF, 0xCC⟩, ⟨1, 0xFF, 0xA9⟩]
  | .serEsc9E _ => [⟨0, 0xFF, 0xCC⟩, ⟨1, 0xFF, 0x61⟩]
  | .serEscCC _ => [⟨0, 0xFF, 0xCC⟩, ⟨1, 0xFF, 0x33⟩]
  | .spiWrite _ _ _ => [⟨0, 0xFF, 0x11⟩]
  | .spiRead _ _ _ => [⟨0, 0xFF, 0x55⟩]
  | .spiTagLen _ _ _ _ => [⟨0, 0xFF, 0x4C⟩, ⟨1, 0xFF, 0x45⟩, ⟨2, 0xFF, 0x4E⟩]
  | .spiTagRsp _ _ _ _ => [⟨0, 0xFF, 0x52⟩, ⟨1, 0xFF, 0x53⟩, ⟨2, 0xFF, 0x50⟩]
  | .i2cCmdReady _ _ _ => [⟨0, 0x01, 0x01⟩]
  | .i2cRspReady _ _ _ _ => [⟨0, 0x02, 0x02⟩]
  | .i2cBit7 _ _ _ => [⟨0, 0x80, 0x80⟩]

/-- The bytes `bs` hold the fixed bits `q`. -/
def Holds (q : FixedBits) (bs : Bytes) : Prop := ∃ b, bs[q.index]? = some b ∧ b &&& q.mask = q.value

namespace EncodedHead

/-- The encoding of the instruction holds every fixed bit of its row. -/
def Statement (i : Instr) : Prop := ∀ p5, ∀ q ∈ rowFixed p5 i, Holds q (encode p5 i)

/-- One fixed field, found at its index. -/
theorem one {p5 : Byte} {i : Instr} {q : FixedBits} {b : Byte} (hrow : rowFixed p5 i = [q])
    (hb : (encode p5 i)[q.index]? = some b) (hv : b &&& q.mask = q.value) :
    ∀ q ∈ rowFixed p5 i, Holds q (encode p5 i) := by
  intro q' hq
  rw [hrow, List.mem_singleton] at hq
  exact hq ▸ ⟨b, hb, hv⟩

/-- Two fixed fields. -/
theorem two {p5 : Byte} {i : Instr} {q r : FixedBits} (hrow : rowFixed p5 i = [q, r])
    (hq : Holds q (encode p5 i)) (hr : Holds r (encode p5 i)) :
    ∀ q ∈ rowFixed p5 i, Holds q (encode p5 i) := by
  rw [hrow]
  simp [hq, hr]

/-- Three fixed fields. -/
theorem three {p5 : Byte} {i : Instr} {q r x : FixedBits} (hrow : rowFixed p5 i = [q, r, x])
    (hq : Holds q (encode p5 i)) (hr : Holds r (encode p5 i)) (hx : Holds x (encode p5 i)) :
    ∀ q ∈ rowFixed p5 i, Holds q (encode p5 i) := by
  rw [hrow]
  simp [hq, hr, hx]

theorem and_ff (b : Byte) : b &&& 0xFF = b := BitVec.and_allOnes

theorem cmdReady_bit (hi : BitVec 7) : statusCmdReady hi &&& 0x01 = 0x01 := by
  revert hi
  decide

theorem rspReady_bit (hi : BitVec 6) (lo : BitVec 1) : statusRspReady hi lo &&& 0x02 = 0x02 := by
  revert hi lo
  decide

theorem bit7_bit (lo : BitVec 7) : statusBit7 lo &&& 0x80 = 0x80 := by
  revert lo
  decide

theorem csum (data : Bytes) :
    Statement (.csum data) := fun _ => one rfl rfl rfl

theorem csumVerify (data : Bytes) (c : U16) :
    Statement (.csumVerify data c) := fun _ => one rfl rfl rfl

theorem frameSeal (p : Bytes) :
    Statement (.frameSeal p) := fun _ => one rfl rfl rfl

theorem frameOpen (f : Bytes) :
    Statement (.frameOpen f) := fun _ => one rfl rfl rfl

theorem cmdDecode (b : Bytes) :
    Statement (.cmdDecode b) := fun _ => one rfl rfl rfl

theorem cmdEncode (seq : Byte) (sync : Bool) (cmd : Byte) (data : Bytes) :
    Statement (.cmdEncode seq sync cmd data) := fun _ => one rfl rfl rfl

theorem stsDecode (b : Bytes) :
    Statement (.stsDecode b) := fun _ => one rfl rfl rfl

theorem stsEncode (seq : Byte) (resend : Bool) (status : Byte) (data : Bytes) :
    Statement (.stsEncode seq resend status data) := fun _ => one rfl rfl rfl

theorem ciDecode (stream : Bytes) :
    Statement (.ciDecode stream) := fun _ => one rfl rfl rfl

theorem ciEncode (ci : ClientInfo) :
    Statement (.ciEncode ci) := fun _ => one rfl rfl rfl

theorem ciSetDefaultTimeouts (ci : ClientInfo) :
    Statement (.ciSetDefaultTimeouts ci) := fun _ => one rfl rfl rfl

theorem itdFromNs (n : Nat) :
    Statement (.itdFromNs n) := fun _ => one rfl rfl rfl

theorem itdDecode (b : Bytes) :
    Statement (.itdDecode b) := fun _ => one rfl rfl rfl

theorem itdEncode (n : U32) :
    Statement (.itdEncode n) := fun _ => one rfl rfl rfl

theorem serEscape (d : Bytes) :
    Statement (.serEscape d) := fun _ => one rfl rfl rfl

theorem serUnescape (e : Bytes) :
    Statement (.serUnescape e) := fun _ => one rfl rfl rfl

theorem serFrameEncode (p : Bytes) :
    Statement (.serFrameEncode p) := fun _ => one rfl rfl rfl

theorem serFrameDecode (frame : Bytes) (dir : Dir) :
    Statement (.serFrameDecode frame dir) := fun _ => one rfl rfl rfl

theorem serByte (k : Byte) (b : Byte) :
    Statement (.serByte k b) := fun _ => one rfl rfl rfl

theorem i2cTxn (k : Byte) (rw : Rw) (addr : BitVec 7) (data : Bytes) :
    Statement (.i2cTxn k rw addr data) := fun _ => one rfl rfl rfl

theorem spiTxn (k : Byte) (mosi : Bytes) (miso : Bytes) :
    Statement (.spiTxn k mosi miso) := fun _ => one rfl rfl rfl

theorem sessionResult (k : Byte) (r : Result) :
    Statement (.sessionResult k r) := fun _ => one rfl rfl rfl

theorem framerReset (unit : Byte) (k : Byte) :
    Statement (.framerReset unit k) := fun _ => one rfl rfl rfl

theorem cmdGetClientInfo (sync : Bool) (rsv : BitVec 2) (seq : BitVec 5) (data : Bytes) :
    Statement (.cmdGetClientInfo sync rsv seq data) := fun _ => one rfl rfl rfl

theorem cmdStartTransfer (sync : Bool) (rsv : BitVec 2) (seq : BitVec 5) (data : Bytes) :
    Statement (.cmdStartTransfer sync rsv seq data) := fun _ => one rfl rfl rfl

theorem cmdWriteChunk (sync : Bool) (rsv : BitVec 2) (seq : BitVec 5) (data : Bytes) :
    Statement (.cmdWriteChunk sync rsv seq data) := fun _ => one rfl rfl rfl

theorem cmdGetImageState (sync : Bool) (rsv : BitVec 2) (seq : BitVec 5) (data : Bytes) :
    Statement (.cmdGetImageState sync rsv seq data) := fun _ => one rfl rfl rfl

theorem cmdEndTransfer (sync : Bool) (rsv : BitVec 2) (seq : BitVec 5) (data : Bytes) :
    Statement (.cmdEndTransfer sync rsv seq data) := fun _ => one rfl rfl rfl

theorem stsSuccess (r7 resend r5 : Bool) (seq : BitVec 5) (data : Bytes) :
    Statement (.stsSuccess r7 resend r5 seq data) := fun _ => one rfl rfl rfl

theorem stsNotSupported (r7 resend r5 : Bool) (seq : BitVec 5) (data : Bytes) :
    Statement (.stsNotSupported r7 resend r5 seq data) := fun _ => one rfl rfl rfl

theorem stsNotAuthorized (r7 resend r5 : Bool) (seq : BitVec 5) (data : Bytes) :
    Statement (.stsNotAuthorized r7 resend r5 seq data) := fun _ => one rfl rfl rfl

theorem stsPacketTransportFailure (r7 resend r5 : Bool) (seq : BitVec 5) (data : Bytes) :
    Statement (.stsPacketTransportFailure r7 resend r5 seq data) := fun _ => one rfl rfl rfl

theorem stsAbortFileTransfer (r7 resend r5 : Bool) (seq : BitVec 5) (data : Bytes) :
    Statement (.stsAbortFileTransfer r7 resend r5 seq data) := fun _ => one rfl rfl rfl

theorem tlvProtocolVersion (len : Byte) (body : Bytes) :
    Statement (.tlvProtocolVersion len body) := fun _ => one rfl rfl rfl

theorem tlvBufferInfo (len : Byte) (body : Bytes) :
    Statement (.tlvBufferInfo len body) := fun _ => one rfl rfl rfl

theorem tlvCommandTimeouts (len : Byte) (body : Bytes) :
    Statement (.tlvCommandTimeouts len body) := fun _ => one rfl rfl rfl

theorem tlvInterTransactionDelay (len : Byte) (body : Bytes) :
    Statement (.tlvInterTransactionDelay len body) := fun p5 => one rfl rfl (and_ff p5)

theorem serStart (k : Byte) :
    Statement (.serStart k) := fun _ => one rfl rfl rfl

theorem serEnd (k : Byte) :
    Statement (.serEnd k) := fun _ => one rfl rfl rfl

theorem serEsc (rest : Bytes) :
    Statement (.serEsc rest) := fun _ => one rfl rfl rfl

theorem serEsc56 (rest : Bytes) :
    Statement (.serEsc56 rest) := fun _ => two rfl ⟨_, rfl, rfl⟩ ⟨_, rfl, rfl⟩

theorem serEsc9E (rest : Bytes) :
    Statement (.serEsc9E rest) := fun _ => two rfl ⟨_, rfl, rfl⟩ ⟨_, rfl, rfl⟩

theorem serEscCC (rest : Bytes) :
    Statement (.serEscCC rest) := fun _ => two rfl ⟨_, rfl, rfl⟩ ⟨_, rfl, rfl⟩

theorem spiWrite (k : Byte) (rest : Bytes) (miso : Bytes) :
    Statement (.spiWrite k rest miso) := fun _ => one rfl rfl rfl

theorem spiRead (k : Byte) (rest : Bytes) (miso : Bytes) :
    Statement (.spiRead k rest miso) := fun _ => one rfl rfl rfl

theorem spiTagLen (k : Byte) (rest : Bytes) (dummy : Byte) (body : Bytes) :
    Statement (.spiTagLen k rest dummy body) := fun _ => three rfl ⟨_, rfl, rfl⟩ ⟨_, rfl, rfl⟩ ⟨_, rfl, rfl⟩

theorem spiTagRsp (k : Byte) (rest : Bytes) (dummy : Byte) (body : Bytes) :
    Statement (.spiTagRsp k rest dummy body) := fun _ => three rfl ⟨_, rfl, rfl⟩ ⟨_, rfl, rfl⟩ ⟨_, rfl, rfl⟩

theorem i2cCmdReady (k : Byte) (hi : BitVec 7) (surplus : Bytes) :
    Statement (.i2cCmdReady k hi surplus) := fun _ => one rfl rfl (cmdReady_bit hi)

theorem i2cRspReady (k : Byte) (hi : BitVec 6) (lo : BitVec 1) (surplus : Bytes) :
    Statement (.i2cRspReady k hi lo surplus) := fun _ => one rfl rfl (rspReady_bit hi lo)

theorem i2cBit7 (k : Byte) (lo : BitVec 7) (surplus : Bytes) :
    Statement (.i2cBit7 k lo surplus) := fun _ => one rfl rfl (bit7_bit lo)

end EncodedHead

end Sys2Proof.Laws
end

