-- ==== Sys2Proof/Laws/Units.lean ====
section
/-! SUPPORT. What the shared operations of each unit can do, said once: the packet decoders, the agents' steps and the
records of the client-info codec. -/

namespace Sys2Proof.Machine

/-- What CMD_DECODE can do (R123). -/
theorem cmdDecode_cases (b : Bytes) :
    (b.length < 2 ∧ cmdDecode b = .error .packetTooShort) ∨
      ∃ b0 b1 data, b = b0 :: b1 :: data ∧
        ((∃ c : CommandCode, b1 = c.code ∧ cmdDecode b = .ok ⟨seqField b0, syncField b0, c, data⟩) ∨
          ((b1 = 0x00 ∨ 6 ≤ b1.toNat) ∧ cmdDecode b = .error .commandNotSupported)) := by
  match b with
  | [] => exact .inl ⟨by simp, rfl⟩
  | [_] => exact .inl ⟨by simp, rfl⟩
  | b0 :: b1 :: data =>
    refine .inr ⟨b0, b1, data, rfl, ?_⟩
    cases h : CommandCode.ofByte b1 with
    | some c => exact .inl ⟨c, CommandCode.ofByte_some h, by simp [cmdDecode, h]⟩
    | none => exact .inr ⟨CommandCode.ofByte_none.mp h, by simp [cmdDecode, h]⟩

/-- What STS_DECODE can do (R137). -/
theorem stsDecode_cases (b : Bytes) :
    (b.length < 2 ∧ stsDecode b = .error .packetTooShort) ∨
      ∃ b0 b1 data, b = b0 :: b1 :: data ∧
        ((∃ c : StatusCode, b1 = c.code ∧ stsDecode b = .ok ⟨seqField b0, resendField b0, c, data⟩) ∨
          ((b1 = 0x00 ∨ 6 ≤ b1.toNat) ∧ stsDecode b = .error .statusInvalid)) := by
  match b with
  | [] => exact .inl ⟨by simp, rfl⟩
  | [_] => exact .inl ⟨by simp, rfl⟩
  | b0 :: b1 :: data =>
    refine .inr ⟨b0, b1, data, rfl, ?_⟩
    cases h : StatusCode.ofByte b1 with
    | some c => exact .inl ⟨c, StatusCode.ofByte_some h, by simp [stsDecode, h]⟩
    | none => exact .inr ⟨StatusCode.ofByte_none.mp h, by simp [stsDecode, h]⟩

/-- What one byte can do to a serial framer's state (R205): nothing, a restart, an append below the capacity, or IDLE. -/
theorem serByte_cases (b : Byte) (u : SerFramer) :
    (serByte b u).1 = u ∨ (serByte b u).1 = { u with state := .decoding, buf := [] } ∨
      ((serByte b u).1 = { u with buf := u.buf ++ [b] } ∧ u.state = .decoding ∧ b ≠ startCode ∧ b ≠ endCode ∧
        ∀ n, u.cap = some n → u.buf.length ≠ n) ∨
      (serByte b u).1 = { u with state := .idle, buf := [] } := by
  unfold serByte
  cases hs : u.state with
  | idle =>
    by_cases hb : b = startCode
    · simp [hb]
    · simp [hb]
  | decoding =>
    by_cases hb : b = startCode
    · exact .inr (.inl (by simp [hb]))
    · by_cases he : b = endCode
      · exact .inr (.inr (.inr (by simp [he, endCode, startCode])))
      · by_cases hf : u.full = true
        · exact .inr (.inr (.inr (by simp [hb, he, hf])))
        · refine .inr (.inr (.inl ⟨by simp [hb, he, hf], rfl, hb, he, ?_⟩))
          intro n hn hlen
          exact hf (by simp [SerFramer.full, hn, hlen])

/-- What one transaction can do to an I2C framer's state: the rows of R247. -/
theorem i2cTxn_cases {rw : Rw} {data : Bytes} {u u' : I2cFramer} {r : Result} (h : i2cTxn rw data u = some (u', r)) :
    u' = u ∨ u' = { u with phase := .responseStatus, rspLen := none } ∨
      (u.phase = .responseStatus ∧ u' = { u with phase := .responseLength }) ∨
      (u.phase = .responseLength ∧ ∃ l, u' = { u with rspLen := some l, phase := .response }) ∨
      (u.phase = .response ∧ u' = { u with phase := .command, rspLen := none }) := by
  cases rw with
  | write =>
    simp only [i2cTxn, i2cWrite, Option.some.injEq] at h
    split at h <;> cases h
    · exact .inl rfl
    · exact .inr (.inl rfl)
  | read =>
    have status (h : i2cStatusRead data u = (u', r)) :
        u' = u ∨ u.phase = .responseStatus ∧ u' = { u with phase := .responseLength } := by
      unfold i2cStatusRead at h
      split at h <;> cases h
      · exact .inl rfl
      · split
        · next hp => exact .inr ⟨hp.1, rfl⟩
        · exact .inl rfl
    simp only [i2cTxn, i2cRead] at h
    cases hp : u.phase <;> simp only [hp] at h
    · rcases status (Option.some.inj h) with h' | ⟨h', -⟩
      · exact .inl h'
      · simp [hp] at h'
    · rcases status (Option.some.inj h) with h' | ⟨-, h'⟩
      · exact .inl h'
      · exact .inr (.inr (.inl ⟨rfl, h'⟩))
    · have h := Option.some.inj h
      unfold i2cLengthRead at h
      split at h
      · cases h; exact .inl rfl
      · split at h <;> cases h
        · exact .inl rfl
        · exact .inr (.inr (.inr (.inl ⟨rfl, _, rfl⟩)))
    · split at h
      · have h := Option.some.inj h
        unfold i2cResponseRead at h
        split at h
        · cases h; exact .inl rfl
        · split at h <;> cases h
          · exact .inl rfl
          · exact .inr (.inr (.inr (.inr ⟨rfl, rfl⟩)))
      · cases h

/-- What one transaction can do to an SPI framer's state: the rows of R287. -/
theorem spiTxn_cases (mosi miso : Bytes) (u : SpiFramer) :
    (spiTxn mosi miso u).1 = u ∨ (spiTxn mosi miso u).1 = { u with rspLen := none } ∨
      ∃ l, (spiTxn mosi miso u).1 = { u with rspLen := some l } := by
  simp only [spiTxn, spiWrite, spiQuery, spiLenReply, spiRspReply, spiResponse]
  repeat' split
  all_goals first
    | exact .inl rfl
    | exact .inr (.inl rfl)
    | exact .inr (.inr ⟨_, rfl⟩)

/-- What one forwarded result can do to a session unit's state (R310). -/
theorem sessionStep_cases (p5 : Byte) (r : Result) (u : SessionUnit) :
    (sessionStep p5 r u).1 = u ∨ (sessionStep p5 r u).1 = ⟨none⟩ ∨
      ∃ p, r = .cmd p ∧ (sessionStep p5 r u).1 = ⟨some p.cmd⟩ := by
  cases r with
  | cmd p => exact .inr (.inr ⟨p, rfl, rfl⟩)
  | sts q => exact .inr (.inl rfl)
  | _ => exact .inl rfl

/-- `upsert` keeps the codes, or adds the new one at the end (R158). -/
theorem upsert_codes (l : List (CommandCode × U16)) (c : CommandCode) (t : U16) :
    (upsert l c t).map Prod.fst = if c ∈ l.map Prod.fst then l.map Prod.fst else l.map Prod.fst ++ [c] := by
  induction l with
  | nil => simp [upsert]
  | cons p l ih =>
    obtain ⟨c', t'⟩ := p
    by_cases h : c' = c
    · simp [upsert, h]
    · have hc : c ≠ c' := Ne.symm h
      simp only [upsert, h, if_false, List.map_cons, ih, List.mem_cons, hc, false_or]
      split <;> simp

/-- One turn of CI_DECODE's loop on a legal record of a known type (R152). -/
theorem ciLoop_record_ok {p5 t : Byte} {v rest : Bytes} {a a' : CiFields} (fuel : Nat) (ht : ciKnownType p5 t = true)
    (hv : v.length ≤ 255) (h : ciRecord t v a = .ok a') :
    ciLoop p5 (fuel + 1) (t :: BitVec.ofNat 8 v.length :: (v ++ rest)) a = ciLoop p5 fuel rest a' := by
  have hn : (BitVec.ofNat 8 v.length).toNat = v.length := by simp; omega
  simp [ciLoop, ht, hn, h]

/-- One turn of CI_DECODE's loop on an illegal record of a known type (R152, R153). -/
theorem ciLoop_record_error {p5 t : Byte} {v rest : Bytes} {a : CiFields} {e : CiSub} (fuel : Nat)
    (ht : ciKnownType p5 t = true) (hv : v.length ≤ 255) (h : ciRecord t v a = .error e) :
    ciLoop p5 (fuel + 1) (t :: BitVec.ofNat 8 v.length :: (v ++ rest)) a = .error e := by
  have hn : (BitVec.ofNat 8 v.length).toNat = v.length := by simp; omega
  simp [ciLoop, ht, hn, h]

end Sys2Proof.Machine
end

