-- ==== Sys2Proof/Machine/Views.lean ====
section
/-! DEFINITION. The seconds views of 42_client_info.md R166: read-only interpretations for the host, exact rationals
(00_scope.md R16, R169). The block never computes them. -/

namespace Sys2Proof.Machine

/-- A timeout of raw count t is exactly t/10 seconds (R166). -/
def timeoutSeconds (t : U16) : ℚ := (t.toNat : ℚ) / 10

/-- A delay of n ns is exactly n/10^9 seconds (R166). -/
def delaySeconds (n : U32) : ℚ := (n.toNat : ℚ) / 10 ^ 9

end Sys2Proof.Machine
end

