-- ==== Sys2Proof/Tests/Slice0.lean ====
section
/-! SUPPORT. Tests of our own. Every expected value is from the spec: its encoding tables (30_encoding.md), its worked
examples and its vectors (95_test_vectors.md, cited as T-...). -/

namespace Sys2Proof.Tests

open Sys2Proof.Machine

section

set_option Elab.async false

/-- The reply an instruction gives in a state, if it gives one. -/
def replyOf (i : Instr) (s : State) : Option Reply :=
  match exec i s with
  | .next t => some t.reply
  | .fault _ => none
  | .refused _ => none

/-- The state after an instruction, if it gives one. -/
def after (i : Instr) (s : State) : Option State :=
  match exec i s with
  | .next t => some t
  | .fault _ => none
  | .refused _ => none

/-- The value of a pure operation after reset. -/
def value (i : Instr) : Option Reply := replyOf i State.reset

/-- `VALUE` of bytes on the result port. -/
def bytes (b : Bytes) : Option Reply := some (.result (.value (.bytes b)))

/-- An error without a phase on the result port. -/
def err (e : ErrorKind) : Option Reply := some (.result (.err e .none))

/-- Stream CI1 of 95_test_vectors.md section 2.4. -/
def ci1 : Bytes := [0x02, 0x03, 0x40, 0x00, 0x05, 0x01, 0x03, 0x01, 0x02, 0x03, 0x03, 0x03, 0x00, 0x01, 0x00]

/-- The record of T-CI-1. -/
def rec1 : ClientInfo := ⟨⟨1, 2, 3, none⟩, 5, 64, 1, [], none⟩

/-- A record with a command twice among its overrides: no ClientInfo value (R34). -/
def repeated : ClientInfo := { rec1 with overrides := [(.writeChunk, 1), (.writeChunk, 2)] }

/-! ## Well-formedness: one ill-formed term for each check -/

theorem test_wf_ciEncode : (Instr.ciEncode repeated).wf = false := by decide
theorem test_wf_ciSetDefaultTimeouts : (Instr.ciSetDefaultTimeouts repeated).wf = false := by decide
theorem test_wf_sessionResult : (Instr.sessionResult 0 (.value (.info repeated))).wf = false := by decide
theorem test_wf_framerReset : (Instr.framerReset 0x35 0).wf = false := by decide
theorem test_wf_accepts : (Instr.ciEncode rec1).wf = true ∧ (Instr.framerReset 0x50 0).wf = true := by decide

/-! ## Decoding: one word per constructor, written out from R70 to R88 (operand layouts: log 2) -/

/-- The bytes of one delivery decode to an instruction, with P5 = 0x04. -/
abbrev Decodes (src : Source) (bs : Bytes) (i : Instr) : Prop := decode 0x04 src bs = .ok i

theorem test_decode_csum : Decodes .request [0x01, 0x00, 0x02, 0x03, 0x01] (.csum [0x03, 0x01]) := by decide
theorem test_decode_csumVerify :
    Decodes .request [0x02, 0x00, 0x02, 0x03, 0x01, 0xFC, 0xFE] (.csumVerify [0x03, 0x01] 0xFEFC) := by decide
theorem test_decode_frameSeal : Decodes .request [0x03, 0x00, 0x01, 0x05] (.frameSeal [0x05]) := by decide
theorem test_decode_frameOpen : Decodes .request [0x04, 0x00, 0x02, 0xFF, 0xFE] (.frameOpen [0xFF, 0xFE]) := by decide
theorem test_decode_cmdDecode : Decodes .request [0x10, 0x00, 0x02, 0x03, 0x01] (.cmdDecode [0x03, 0x01]) := by decide
theorem test_decode_cmdEncode :
    Decodes .request [0x11, 0x00, 0x1F, 0x01, 0x05, 0x01, 0xAA] (.cmdEncode 31 true 5 [0xAA]) := by decide
theorem test_decode_stsDecode : Decodes .request [0x12, 0x00, 0x02, 0x43, 0x01] (.stsDecode [0x43, 0x01]) := by decide
theorem test_decode_stsEncode :
    Decodes .request [0x13, 0x00, 0x03, 0x00, 0x01, 0x00] (.stsEncode 3 false 1 []) := by decide
theorem test_decode_ciDecode : Decodes .request [0x20, 0x00, 0x02, 0x09, 0x00] (.ciDecode [0x09, 0x00]) := by decide
theorem test_decode_ciEncode :
    Decodes .request
      [0x21, 0x00, 0x01, 0x02, 0x03, 0x00, 0x05, 0x40, 0x00, 0x01, 0x00, 0x01, 0x03, 0x14, 0x00, 0x01, 0x40, 0x42, 0x0F, 0x00]
      (.ciEncode ⟨⟨1, 2, 3, none⟩, 5, 64, 1, [(.writeChunk, 20)], some 1000000⟩) := by decide
theorem test_decode_ciSetDefaultTimeouts :
    Decodes .request [0x22, 0x00, 0x02, 0x00, 0x01, 0x01, 0x07, 0x02, 0x00, 0x01, 0x32, 0x00, 0x00, 0x00]
      (.ciSetDefaultTimeouts ⟨⟨2, 0, 1, some 7⟩, 2, 256, 50, [], none⟩) := by decide
theorem test_decode_itdFromNs : Decodes .request [0x28, 0x00, 0x80, 0x01] (.itdFromNs 128) := by decide
theorem test_decode_itdDecode :
    Decodes .request [0x29, 0x00, 0x04, 0x40, 0x42, 0x0F, 0x00] (.itdDecode [0x40, 0x42, 0x0F, 0x00]) := by decide
theorem test_decode_itdEncode : Decodes .request [0x2A, 0x00, 0x40, 0x42, 0x0F, 0x00] (.itdEncode 1000000) := by decide
theorem test_decode_serEscape : Decodes .request [0x30, 0x00, 0x01, 0x56] (.serEscape [0x56]) := by decide
theorem test_decode_serUnescape :
    Decodes .request [0x31, 0x00, 0x02, 0xCC, 0xA9] (.serUnescape [0xCC, 0xA9]) := by decide
theorem test_decode_serFrameEncode :
    Decodes .request [0x32, 0x00, 0x02, 0x03, 0x01] (.serFrameEncode [0x03, 0x01]) := by decide
theorem test_decode_serFrameDecode :
    Decodes .request [0x33, 0x00, 0x02, 0x56, 0x9E, 0x01] (.serFrameDecode [0x56, 0x9E] .rsp) := by decide
theorem test_decode_serByte : Decodes .request [0x34, 0x01, 0x9E] (.serByte 1 0x9E) := by decide
theorem test_decode_i2cTxn :
    Decodes .request [0x40, 0x00, 0x00, 0x20, 0x04, 0x03, 0x01, 0xFC, 0xFE]
      (.i2cTxn 0 .write 0x20 [0x03, 0x01, 0xFC, 0xFE]) := by decide
theorem test_decode_spiTxn :
    Decodes .request [0x50, 0x00, 0x01, 0x22, 0x01, 0x00] (.spiTxn 0 [0x22] [0x00]) := by decide
theorem test_decode_sessionResult :
    Decodes .request [0x60, 0x00, 0x01, 0x03, 0x00, 0x01, 0x00]
      (.sessionResult 0 (.cmd ⟨3, false, .getClientInfo, []⟩)) := by decide
theorem test_decode_framerReset : Decodes .request [0x70, 0x00, 0x34] (.framerReset 0x34 0) := by decide
theorem test_decode_cmdGetClientInfo :
    Decodes .commandPacket [0x63, 0x01] (.cmdGetClientInfo false 3 3 []) := by decide
theorem test_decode_cmdStartTransfer :
    Decodes .commandPacket [0xFF, 0x02, 0x00] (.cmdStartTransfer true 3 31 [0x00]) := by decide
theorem test_decode_cmdWriteChunk : Decodes .commandPacket [0x1E, 0x03, 0x9E] (.cmdWriteChunk false 0 30 [0x9E]) := by decide
theorem test_decode_cmdGetImageState : Decodes .commandPacket [0x20, 0x04] (.cmdGetImageState false 1 0 []) := by decide
theorem test_decode_cmdEndTransfer : Decodes .commandPacket [0x9F, 0x05] (.cmdEndTransfer true 0 31 []) := by decide
theorem test_decode_stsSuccess :
    Decodes .statusPacket [0x43, 0x01, 0xAA] (.stsSuccess false true false 3 [0xAA]) := by decide
theorem test_decode_stsNotSupported :
    Decodes .statusPacket [0x83, 0x02] (.stsNotSupported true false false 3 []) := by decide
theorem test_decode_stsNotAuthorized :
    Decodes .statusPacket [0x83, 0x03] (.stsNotAuthorized true false false 3 []) := by decide
theorem test_decode_stsPacketTransportFailure :
    Decodes .statusPacket [0x23, 0x04] (.stsPacketTransportFailure false false true 3 []) := by decide
theorem test_decode_stsAbortFileTransfer :
    Decodes .statusPacket [0x5F, 0x05] (.stsAbortFileTransfer false true false 31 []) := by decide
theorem test_decode_tlvProtocolVersion :
    Decodes .parameterStream [0x01, 0x03, 0x01, 0x02, 0x03] (.tlvProtocolVersion 3 [1, 2, 3]) := by decide
theorem test_decode_tlvBufferInfo :
    Decodes .parameterStream [0x02, 0x03, 0x40, 0x00, 0x05] (.tlvBufferInfo 3 [0x40, 0, 5]) := by decide
theorem test_decode_tlvCommandTimeouts :
    Decodes .parameterStream [0x03, 0x03, 0x00, 0x01, 0x00] (.tlvCommandTimeouts 3 [0, 1, 0]) := by decide
theorem test_decode_tlvInterTransactionDelay :
    Decodes .parameterStream [0x04, 0x04, 0xFF, 0xFF, 0xFF, 0xFF]
      (.tlvInterTransactionDelay 4 [0xFF, 0xFF, 0xFF, 0xFF]) := by decide
theorem test_decode_serStart : Decodes (.serialLine 1) [0x56] (.serStart 1) := by decide
theorem test_decode_serEnd : Decodes (.serialLine 0) [0x9E] (.serEnd 0) := by decide
theorem test_decode_serEsc : Decodes .escapedBody [0xCC, 0x33] (.serEsc [0x33]) := by decide
theorem test_decode_serEsc56 : Decodes .escapePair [0xCC, 0xA9] (.serEsc56 []) := by decide
theorem test_decode_serEsc9E : Decodes .escapePair [0xCC, 0x61, 0x43] (.serEsc9E [0x43]) := by decide
theorem test_decode_serEscCC : Decodes .escapePair [0xCC, 0x33] (.serEscCC []) := by decide
theorem test_decode_spiWrite :
    Decodes (.spiOutbound 0) [0x11, 0x04, 0x03, 0x01, 0xFC, 0xFE, 0x00] (.spiWrite 0 [0x03, 0x01, 0xFC, 0xFE] []) := by decide
theorem test_decode_spiRead :
    Decodes (.spiOutbound 0) [0x55, 0x00, 0x02, 0xFF, 0xFF] (.spiRead 0 [] [0xFF, 0xFF]) := by decide
theorem test_decode_spiTagLen :
    Decodes (.spiReply 0) [0x4C, 0x45, 0x4E, 0xFF, 0x00, 0x04, 0x13, 0x00, 0xEC, 0xFF]
      (.spiTagLen 0 [] 0xFF [0x13, 0x00, 0xEC, 0xFF]) := by decide
theorem test_decode_spiTagRsp :
    Decodes (.spiReply 0) [0x52, 0x53, 0x50, 0x00, 0x00, 0x01, 0x43] (.spiTagRsp 0 [] 0x00 [0x43]) := by decide
theorem test_decode_i2cCmdReady : Decodes (.i2cStatus 0 .cmdReady) [0x83] (.i2cCmdReady 0 0x41 []) := by decide
theorem test_decode_i2cRspReady : Decodes (.i2cStatus 0 .rspReady) [0x83] (.i2cRspReady 0 0x20 1 []) := by decide
theorem test_decode_i2cBit7 : Decodes (.i2cStatus 0 .bit7) [0x82] (.i2cBit7 0 0x02 []) := by decide

/-- Bytes that are no instruction are rejected by name (R71, R93; log 13). -/
theorem test_decode_rejects :
    decode 0x04 .request [0x05, 0x00] = .error (.reservedOperation 0x05) ∧
    decode 0x04 .request [0x01, 0x01, 0x00] = .error (.nonzeroIndex 0x01) ∧
    decode 0x04 .request [0x01, 0x00, 0x02, 0x03] = .error .truncated ∧
    decode 0x04 .request [0x34, 0x00, 0x56, 0x00] = .error .trailingBytes ∧
    decode 0x04 .request [0x11, 0x00, 0x03, 0x02, 0x01, 0x00] = .error (.badFlag 0x02) ∧
    decode 0x04 .request [0x40, 0x00, 0x02, 0x20, 0x00] = .error (.badSelector 0x02) ∧
    decode 0x04 .request [0x40, 0x00, 0x00, 0x80, 0x00] = .error (.badRange 0x80) := by decide

/-- P5 names the delay record's type byte (R151). -/
theorem test_decode_p5 :
    decode 0x20 .parameterStream [0x20, 0x04] = .ok (.tlvInterTransactionDelay 4 []) ∧
    decode 0x20 .parameterStream [0x04, 0x04] = .ok (.ciDecode [0x04, 0x04]) := by decide

/-- Wire inputs that begin with the code of no row are taken by the unit's operation (R77, R82, R85, R89, R206, R241). -/
theorem test_decode_noRow :
    Decodes .commandPacket [0x03, 0x06] (.cmdDecode [0x03, 0x06]) ∧ Decodes .statusPacket [0x03] (.stsDecode [0x03]) ∧
    Decodes .escapePair [0xCC, 0x00] (.serUnescape [0xCC, 0x00]) ∧ Decodes (.serialLine 1) [0x43] (.serByte 1 0x43) ∧
    Decodes (.spiOutbound 0) [0x12, 0x01, 0xAA, 0x00] (.spiTxn 0 [0x12, 0xAA] []) ∧
    Decodes (.spiReply 0) [0x4C, 0x45, 0x4F, 0xFF, 0x00, 0x00] (.spiTxn 0 [0x55] [0xFF, 0x4C, 0x45, 0x4F]) ∧
    Decodes (.i2cStatus 0 .bit7) [0x02] (.i2cTxn 0 .read 0 [0x02]) := by decide

/-- T-PK-6 as a wire input: CommandNotSupported. -/
theorem test_step_unknown_command :
    step { State.reset with pending := [.deliver .commandPacket [0x03, 0x06]] } =
      .next (State.reset.emit (.result (.err .commandNotSupported .none))) := rfl

/-! ## Checksum Engine (T-CS, T-FR) -/

/-- T-CS-7. -/
theorem test_csum_odd : value (.csum [0x01, 0x02, 0x03]) = some (.result (.value (.word 0xFDFB))) := by decide
/-- T-CS-9: the carry out of bit 15 is dropped. -/
theorem test_csum_wraps : value (.csum [0xFF, 0xFF, 0x01, 0x00]) = some (.result (.value (.word 0xFFFF))) := by decide
/-- T-CS-13, T-CS-14. -/
theorem test_csumVerify :
    value (.csumVerify [0x03, 0x01] 0xFEFC) = some (.result (.value (.flag true))) ∧
    value (.csumVerify [0x03, 0x01] 0xFCFE) = some (.result (.value (.flag false))) := by decide
/-- T-FR-4. -/
theorem test_frameSeal : value (.frameSeal [0x03, 0x01, 0xAA]) = bytes [0x03, 0x01, 0xAA, 0x52, 0xFE] := by decide
/-- T-FR-8, T-FR-10. -/
theorem test_frameOpen :
    value (.frameOpen [0x03, 0x01, 0xFC, 0xFF]) = err .checksumInvalid ∧
    value (.frameOpen [0x05, 0xFA, 0xFF]) = bytes [0x05] := by decide
/-- T-FR-11, T-FR-12. -/
theorem test_frameOpen_short :
    value (.frameOpen [0xFF]) = err (.framingError .tooShort) ∧
    value (.frameOpen []) = err (.framingError .tooShort) := by decide

/-! ## Packet Codec (T-PK) -/

/-- T-PK-3: reserved bits ignored. -/
theorem test_cmdDecode :
    value (.cmdDecode [0x63, 0x01]) = some (.result (.cmd ⟨3, false, .getClientInfo, []⟩)) := by decide
/-- T-PK-6, T-PK-7. -/
theorem test_cmdDecode_errors :
    value (.cmdDecode [0x03, 0x06]) = err .commandNotSupported ∧ value (.cmdDecode [0x03]) = err .packetTooShort := by decide
/-- T-PK-9, T-PK-10: the sequence check comes first. -/
theorem test_cmdEncode :
    value (.cmdEncode 31 true 5 []) = bytes [0x9F, 0x05] ∧
    value (.cmdEncode 32 false 9 []) = err .sequenceNumberOutOfRange := by decide
/-- T-PK-13, T-PK-15. -/
theorem test_stsDecode :
    value (.stsDecode [0x43, 0x01, 0xAA]) = some (.result (.sts ⟨3, true, .success, [0xAA]⟩)) ∧
    value (.stsDecode [0xA3, 0x01]) = some (.result (.sts ⟨3, false, .success, []⟩)) := by decide
/-- T-PK-19, T-PK-21. -/
theorem test_stsEncode :
    value (.stsEncode 31 true 5 []) = bytes [0x5F, 0x05] ∧ value (.stsEncode 3 false 6 []) = err .statusInvalid := by decide
/-- R75, T-PK-4. -/
theorem test_command_rows :
    value (.cmdStartTransfer true 3 31 [0x00]) = some (.result (.cmd ⟨31, true, .startTransfer, [0x00]⟩)) ∧
    value (.cmdEndTransfer true 0 31 []) = some (.result (.cmd ⟨31, true, .endTransfer, []⟩)) := by decide
/-- R76, T-PK-16. -/
theorem test_status_rows :
    value (.stsNotSupported true false false 3 []) = some (.result (.sts ⟨3, false, .notSupported, []⟩)) ∧
    value (.stsAbortFileTransfer false true false 31 []) = some (.result (.sts ⟨31, true, .abortFileTransfer, []⟩)) := by
  decide

/-! ## Client-Info Codec (T-CI) -/

/-- T-CI-1. -/
theorem test_ciDecode : value (.ciDecode ci1) = some (.result (.value (.info rec1))) := by decide
/-- T-CI-18: pre-release, an override, a delay. -/
theorem test_ciDecode_all :
    value (.ciDecode [0x01, 0x04, 0x02, 0x00, 0x01, 0x07, 0x02, 0x03, 0x00, 0x01, 0x02, 0x03, 0x06, 0x00, 0x32, 0x00,
        0x03, 0xF4, 0x01, 0x04, 0x04, 0x40, 0x42, 0x0F, 0x00]) =
      some (.result (.value (.info ⟨⟨2, 0, 1, some 7⟩, 2, 256, 50, [(.writeChunk, 500)], some 1000000⟩))) := by decide
/-- P5, step 9. -/
theorem test_ciEncode :
    value (.ciEncode { rec1 with overrides := [(.writeChunk, 20)], itd := some 1000000 }) =
      bytes [0x02, 0x03, 0x40, 0x00, 0x05, 0x01, 0x03, 0x01, 0x02, 0x03, 0x03, 0x06, 0x00, 0x01, 0x00, 0x03, 0x14, 0x00,
        0x04, 0x04, 0x40, 0x42, 0x0F, 0x00] := by decide
/-- T-EX-11. -/
theorem test_ciSetDefaultTimeouts :
    value (.ciSetDefaultTimeouts { rec1 with defaultTimeout := 10, overrides := [(.writeChunk, 50)] }) =
      some (.result (.value (.info { rec1 with
        defaultTimeout := 10
        overrides := [(.writeChunk, 50), (.getClientInfo, 10), (.startTransfer, 10), (.getImageState, 10),
          (.endTransfer, 10)] }))) := by decide
/-- T-CI-7, T-CI-8 as rows; T-CI-16 with P5 = 0x04. -/
theorem test_parameter_rows :
    value (.tlvProtocolVersion 2 [0x01, 0x02]) = err (.clientInfoError .badLength) ∧
    value (.tlvBufferInfo 4 [0, 0, 0, 0]) = err (.clientInfoError .badLength) ∧
    value (.tlvInterTransactionDelay 3 [0, 0, 0]) = err (.clientInfoError .badLength) := by decide
/-- T-EX-10: the records in the order 03, 01, 02. -/
theorem test_tlvCommandTimeouts :
    value (.tlvCommandTimeouts 3 [0, 1, 0, 0x01, 0x03, 1, 2, 3, 0x02, 0x03, 0x40, 0x00, 0x05]) =
      some (.result (.value (.info rec1))) := by decide
/-- R163 to R165: the bound 2^32, and the examples. -/
theorem test_delay :
    value (.itdFromNs 4294967295) = some (.result (.value (.delay 0xFFFFFFFF))) ∧
    value (.itdFromNs 4294967296) = err (.delayOutOfRange .tooLarge) ∧
    value (.itdDecode [0x40, 0x42, 0x0F, 0x00]) = some (.result (.value (.delay 1000000))) ∧
    value (.itdDecode [0x40, 0x42, 0x0F]) = err (.delayOutOfRange .badSize) ∧
    value (.itdEncode 1000000) = bytes [0x40, 0x42, 0x0F, 0x00] := by decide
/-- R166: the ends of the two ranges. -/
theorem test_seconds : timeoutSeconds 0xFFFF = 65535 / 10 ∧ delaySeconds 0xFFFFFFFF = 4294967295 / 10 ^ 9 :=
  ⟨rfl, rfl⟩

/-! ## Serial framer (T-SER, T-EX) -/

/-- T-EX-8. -/
theorem test_serEscape : value (.serEscape [0x1E, 0x03, 0x9E, 0x43, 0xFC]) = bytes [0x1E, 0x03, 0xCC, 0x61, 0x43, 0xFC] := by
  decide
/-- T-EX-9, R202: a pair CC CC is illegal. -/
theorem test_serUnescape :
    value (.serUnescape [0xCC, 0xA9, 0xCC, 0x61, 0xCC, 0x33]) = bytes [0x56, 0x9E, 0xCC] ∧
    value (.serUnescape [0xCC, 0xCC]) = err (.framingError .badEscape) := by decide
/-- T-EX-8. -/
theorem test_serFrameEncode :
    value (.serFrameEncode [0x1E, 0x03, 0x9E]) = bytes [0x56, 0x1E, 0x03, 0xCC, 0x61, 0x43, 0xFC, 0x9E] := by decide
/-- T-EX-6, R204's corner cases. -/
theorem test_serFrameDecode :
    value (.serFrameDecode [0x56, 0x00, 0x01, 0xFF, 0xFE, 0x9E] .cmd) =
      some (.result (.cmd ⟨0, false, .getClientInfo, []⟩)) ∧
    value (.serFrameDecode [0x56] .cmd) = err (.framingError .badEnd) ∧
    value (.serFrameDecode [0x56, 0x9E] .cmd) = err (.framingError .tooShort) := by decide
/-- R84. -/
theorem test_escape_rows :
    value (.serEsc56 []) = bytes [0x56] ∧ value (.serEsc9E [0x43]) = bytes [0x9E, 0x43] ∧
    value (.serEscCC []) = bytes [0xCC] ∧ value (.serEsc [0xCC]) = err (.framingError .badEscape) := by decide
/-- P6: a framer of capacity 3 that holds 3 bytes overflows on the fourth. -/
theorem test_serByte_overflow :
    after (.serByte 0 0x04) { State.reset with ser := [some ⟨.cmd, some 3, .decoding, [1, 2, 3]⟩] } =
      some { State.reset with
        ser := [some ⟨.cmd, some 3, .idle, []⟩]
        reply := .result (.err (.framingError .overflow) .none) } := by decide
/-- T-SER-27. -/
theorem test_serStart :
    after (.serStart 1) { State.reset with ser := [some ⟨.cmd, none, .idle, []⟩, some ⟨.rsp, none, .decoding, [3]⟩] } =
      some { State.reset with ser := [some ⟨.cmd, none, .idle, []⟩, some ⟨.rsp, none, .decoding, []⟩] } := by decide
/-- T-SER-24: CC then the end code. -/
theorem test_serEnd :
    after (.serEnd 1) { State.reset with ser := [some ⟨.cmd, none, .idle, []⟩, some ⟨.rsp, none, .decoding, [0xCC]⟩] } =
      some { State.reset with reply := .result (.err (.framingError .badEscape) .none) } := by decide

/-! ## I2C framer (T-I2C) -/

/-- One I2C framer in a phase, with a response length. -/
def i2cIn (p : I2cPhase) (l : Option U16) : State := { State.reset with i2c := [some ⟨0, .ignore, p, l⟩] }

/-- T-I2C-10: a valid checksum moves the phase although the command is unknown. -/
theorem test_i2cTxn_write :
    after (.i2cTxn 0 .write 0x20 [0x03, 0x07, 0xFC, 0xF8]) (i2cIn .command none) =
      some ((i2cIn .responseStatus none).emit (.result (.err .commandNotSupported (.i2c .command)))) := by decide
/-- T-I2C-15. -/
theorem test_i2cTxn_response :
    after (.i2cTxn 0 .read 0x20 [0x03, 0x09, 0xFC, 0xF6]) (i2cIn .response (some 4)) =
      some ((i2cIn .command none).emit (.result (.err .statusInvalid (.i2c .response)))) := by decide
/-- T-I2C-3, T-I2C-12 and R87: bit 0, bit 1 and bit 7. -/
theorem test_i2c_status_rows :
    after (.i2cCmdReady 0 0 []) (i2cIn .responseStatus none) =
      some ((i2cIn .responseStatus none).emit (.result (.poll ⟨0x01⟩))) ∧
    after (.i2cRspReady 0 0x20 0 []) (i2cIn .responseStatus none) =
      some ((i2cIn .responseLength none).emit (.result (.poll ⟨0x82⟩))) ∧
    after (.i2cBit7 0 0 []) (i2cIn .responseStatus none) =
      some ((i2cIn .responseStatus none).emit (.result (.poll ⟨0x80⟩))) := by decide
/-- T-I2C-12: the views of a status byte. -/
theorem test_poll_views :
    (PollStatus.mk 0x82).cmdReady = false ∧ (PollStatus.mk 0x82).rspReady = true ∧ (PollStatus.mk 0x82).bit7 = true := by
  decide

/-! ## SPI framer (T-SPI) -/

/-- One SPI framer with a response length. -/
def spiIn (l : Option U16) : State := { State.reset with spi := [some ⟨0, l⟩] }

/-- T-SPI-9: RSP with no LEN first uses the whole body. -/
theorem test_spiTxn_whole_body :
    replyOf (.spiTxn 0 [0x55] [0x00, 0x52, 0x53, 0x50, 0x43, 0x01, 0xBC, 0xFE, 0x00, 0x00]) (spiIn none) =
      some (.result (.sts ⟨3, true, .success, [0xBC, 0xFE]⟩)) := by decide
/-- T-SPI-5. -/
theorem test_spiTxn_unexpected :
    value (.spiTxn 0 [0x22] [0x00]) = err (.framingError .unexpectedPrefix) := by decide
/-- T-SPI-15: a write abandons the pending response. -/
theorem test_spiWrite :
    after (.spiWrite 0 [0x03, 0x01, 0xFC, 0xFE] []) (spiIn (some 19)) =
      some ((spiIn none).emit (.result (.cmd ⟨3, false, .getClientInfo, []⟩))) := by decide
/-- T-SPI-10. -/
theorem test_spiRead : replyOf (.spiRead 0 [0x00] [0xFF, 0xFF]) (spiIn none) = some (.result .notReady) := by decide
/-- T-SPI-16. -/
theorem test_spiTagLen :
    after (.spiTagLen 0 [] 0xFF [0x13, 0x00, 0xEC, 0xFF]) (spiIn none) =
      some ((spiIn (some 19)).emit (.result (.len 19))) := by decide
/-- T-SPI-14. -/
theorem test_spiTagRsp :
    after (.spiTagRsp 0 [] 0x00 [0x43, 0x01, 0xBC, 0xFE, 0x00]) (spiIn (some 4)) =
      some ((spiIn none).emit (.result (.sts ⟨3, true, .success, []⟩))) := by decide

/-! ## Session pairing and reset (T-SES, T-RST) -/

/-- T-SES-8: sequence number and resend flag are not looked at. -/
theorem test_sessionResult :
    replyOf (.sessionResult 0 (.sts ⟨9, true, .success, ci1⟩)) { State.reset with sess := [some ⟨some .getClientInfo⟩] } =
      some (.pair (.sts ⟨9, true, .success, ci1⟩) (some (.value (.info rec1)))) := by decide
/-- T-SES-3. -/
theorem test_sessionResult_notSupported :
    after (.sessionResult 0 (.sts ⟨3, false, .notSupported, []⟩)) { State.reset with sess := [some ⟨some .getClientInfo⟩] } =
      some (State.reset.emit (.pair (.sts ⟨3, false, .notSupported, []⟩) none)) := by decide
/-- T-RST-1, T-RST-2: a partial frame and a pending response are dropped, with the result NONE. -/
theorem test_framerReset :
    (after (.framerReset 0x34 0) { State.reset with ser := [some ⟨.cmd, some 3, .decoding, [3]⟩] }).map State.ser =
      some [some ⟨.cmd, some 3, .idle, []⟩] ∧
    after (.framerReset 0x40 0) (i2cIn .response (some 19)) = some (i2cIn .command none) := by decide

/-! ## The step, the pseudo-operations and the table words -/

/-- A delivery is decoded and run (R71); one that is no instruction is refused (R93). -/
theorem test_step :
    (step { State.reset with pending := [.deliver .request [0x34, 0x01, 0x56]] } =
      .next { State.reset with ser := [some ⟨.cmd, none, .idle, []⟩, some ⟨.rsp, none, .decoding, []⟩] }) ∧
    (step { State.reset with pending := [.deliver .request [0x05]] } =
      .refused (.undecodable (.reservedOperation 0x05))) := ⟨rfl, rfl⟩
/-- T-SER-28: SER_SEND to a framer of capacity 4. -/
theorem test_serSend :
    (runAll (serSend 0 [0x03, 0x01]) { State.reset with ser := [some ⟨.cmd, some 4, .idle, []⟩] }).map Prod.snd =
      some (List.replicate 5 (.result .none) ++ [.result (.cmd ⟨3, false, .getClientInfo, []⟩)]) := by decide
/-- P4, step 1. -/
theorem test_spiCmd :
    spiCmd 0 [0x03, 0x01] = [.spiTxn 0 [0x11, 0x03, 0x01, 0xFC, 0xFE] [0x00, 0x00, 0x00, 0x00, 0x00]] := by decide
/-- Words of the opcode table: CSUM, SER.ESC_9E (0xCC61), SPI.TAG_RSP (0x525350), and the header 0xCC05, whose first byte is
sync, reserved bits 10 and sequence number 12 (R72, R74, R78). -/
theorem test_table_words :
    decodeTableWord 8 0x01 = some (.csum []) ∧ decodeTableWord 16 0xCC61 = some (.serEsc9E []) ∧
    decodeTableWord 24 0x525350 = some (.spiTagRsp 0 [] 0 []) ∧
    decodeTableWord 16 0xCC05 = some (.cmdEndTransfer true 2 12 []) := by decide
/-- A table word runs as the first instruction after reset. -/
theorem test_withFetchWord :
    step (State.reset.withFetchWord 8 0x56) =
      .next { State.reset with ser := [some ⟨.cmd, none, .decoding, []⟩, some ⟨.rsp, none, .idle, []⟩] } := rfl

/-! ## Witnesses: for every statement of Obligations.lean that has hypotheses, a concrete case that meets them, each clause at
a boundary of its range -/

open Sys2Proof.Spec

/-- A state with one host action pending. -/
def pend (a : HostAction) : State := { State.reset with pending := [a] }

theorem witness_StepRunsDecodedInstruction :
    (pend (.deliver .request [0x34, 0x01, 0x56])).pending = .deliver .request [0x34, 0x01, 0x56] :: [] ∧
    decode (pend (.deliver .request [0x34, 0x01, 0x56])).itdTypeCode .request [0x34, 0x01, 0x56] =
      .ok (.serByte 1 0x56) := by decide

/-- A creation past the end of a class, one at an index in use, one whose parameter is outside its legal set. -/
theorem witness_StepCreatesOrHolds :
    State.reset.pending = [] ∧
    step (pend (.create (.ser 3 .rsp (some 2)))) =
      .next { State.reset with ser := State.reset.ser ++ [none, some ⟨.rsp, some 2, .idle, []⟩] } ∧
    step (pend (.create (.ser 3 .rsp (some 1)))) = .refused .illegalParameter ∧
    step (pend (.create (.i2c 0 2 .ignore))) = .next { State.reset with i2c := [some ⟨2, .ignore, .command, none⟩] } ∧
    step (pend (.create (.i2c 1 1 .ignore))) = .refused .illegalParameter ∧
    step (pend (.create (.i2c 1 0 .variant))) = .refused .illegalParameter ∧
    step (pend (.create (.spi 1 2))) = .next { State.reset with spi := State.reset.spi ++ [some ⟨2, none⟩] } ∧
    step (pend (.create (.spi 1 1))) = .refused .illegalParameter ∧
    step (pend (.create (.sess 0))) = .next State.reset ∧
    step (pend (.create (.codec 0x00))) = .next { State.reset with itdTypeCode := 0x00 } ∧
    step (pend (.create (.codec 0x03))) = .refused .illegalParameter ∧
    step (pend (.create (.codec 0x01))) = .refused .illegalParameter :=
  ⟨rfl, rfl, rfl, rfl, rfl, rfl, rfl, rfl, rfl, rfl, rfl, rfl⟩

theorem witness_ReservedOperationRefused :
    ∀ op ∈ [(0x00 : Byte), 0x05, 0x0F, 0x14, 0x35, 0x71, 0xFF],
      op.toNat ∉ [0x01, 0x02, 0x03, 0x04, 0x10, 0x11, 0x12, 0x13, 0x20, 0x21, 0x22, 0x28, 0x29, 0x2A,
        0x30, 0x31, 0x32, 0x33, 0x34, 0x40, 0x50, 0x60, 0x70] ∧
      (pend (.deliver .request [op])).pending = .deliver .request (op :: []) :: [] := by decide

theorem witness_DecodeEncodeAgree : itdTypeLegal 0x00 = true ∧ itdTypeLegal 0x04 = true ∧ itdTypeLegal 0xFF = true := by
  decide

theorem witness_StepKeepsGoodState :
    (pend (.deliver .request [0x34, 0x01, 0x56])).Good ∧
    step (pend (.deliver .request [0x34, 0x01, 0x56])) =
      .next { State.reset with ser := [some ⟨.cmd, none, .idle, []⟩, some ⟨.rsp, none, .decoding, []⟩] } :=
  ⟨by decide, rfl⟩

theorem witness_GoodStateNeverFaults :
    (i2cIn .response (some 19)).Good ∧
    { State.reset with ser := [some ⟨.cmd, some 2, .decoding, [0xCC, 0x00]⟩] }.Good := by decide

theorem witness_StepKeepsParameters :
    step (pend (.create (.ser 2 .rsp (some 2)))) =
      .next { State.reset with ser := State.reset.ser ++ [some ⟨.rsp, some 2, .idle, []⟩] } ∧
    (pend (.create (.ser 2 .rsp (some 2)))).pending.head? = some (.create (.ser 2 .rsp (some 2))) ∧
    (pend (.create (.ser 2 .rsp (some 2)))).ser[1]? = some (some ⟨.rsp, none, .idle, []⟩) ∧
    (pend (.create (.ser 2 .rsp (some 2)))).i2c[0]? = some (some ⟨0, .ignore, .command, none⟩) ∧
    (pend (.create (.ser 2 .rsp (some 2)))).spi[0]? = some (some ⟨0, none⟩) ∧
    (pend (.create (.ser 2 .rsp (some 2)))).sess[0]? = some (some ⟨none⟩) := ⟨rfl, rfl, rfl, rfl, rfl, rfl⟩

theorem witness_ExecTouchesOnlyItsAgent :
    exec (.serByte 1 0x56) State.reset =
      .next { State.reset with ser := [some ⟨.cmd, none, .idle, []⟩, some ⟨.rsp, none, .decoding, []⟩] } ∧
    target (.serByte 1 0x56) ≠ some (.ser, 0) ∧ target (.serByte 1 0x56) ≠ some (.i2c, 0) ∧
    target (.serByte 1 0x56) ≠ some (.spi, 0) ∧ target (.serByte 1 0x56) ≠ some (.sess, 0) ∧
    target (.csum []) = none ∧ exec (.csum []) State.reset = .next (State.reset.emit (.result (.value (.word 0xFFFF)))) :=
  ⟨rfl, by decide, by decide, by decide, by decide, rfl, rfl⟩

theorem witness_StepsOfDifferentAgentsCommute :
    target (.serByte 0 0x56) ≠ target (.serByte 1 0x56) ∧
    (exec (.serByte 0 0x56) State.reset =
      .next { State.reset with ser := [some ⟨.cmd, none, .decoding, []⟩, some ⟨.rsp, none, .idle, []⟩] }) ∧
    (exec (.serByte 1 0x56) { State.reset with ser := [some ⟨.cmd, none, .decoding, []⟩, some ⟨.rsp, none, .idle, []⟩] } =
      .next { State.reset with ser := [some ⟨.cmd, none, .decoding, []⟩, some ⟨.rsp, none, .decoding, []⟩] }) :=
  ⟨by decide, rfl, rfl⟩

theorem witness_PureOperationRepeats :
    target (.frameSeal []) = none ∧
    exec (.frameSeal []) State.reset = .next (State.reset.emit (.result (.value (.bytes [0xFF, 0xFF])))) ∧
    (i2cIn .response (some 19)).itdTypeCode = State.reset.itdTypeCode := ⟨rfl, rfl, rfl⟩

theorem witness_FrameOpenResult :
    ([0xFF] : Bytes).length < 2 ∧ (0xFC : Byte).toNat + 256 * (0xFE : Byte).toNat = checksumNat [0x03, 0x01] ∧
    (0xFC : Byte).toNat + 256 * (0xFF : Byte).toNat ≠ checksumNat [0x03, 0x01] := by decide

theorem witness_ChecksumLaws : ([0x03, 0x01] : Bytes).length % 2 = 0 ∧ totalNat (frameSeal [0x03, 0x01]) = 0xFFFF := by
  decide

theorem witness_ChecksumWordOrder :
    ([((0x01 : Byte), (0x00 : Byte)), (0xFF, 0xFF)].Perm [(0xFF, 0xFF), (0x01, 0x00)]) ∧
    ([0x56, 0x9E] : Bytes).length % 2 = 0 ∧ (0x00 : Byte) ≠ 0x01 := by decide

/-- For CmdDecodeResult, StsDecodeResult. -/
theorem witness_PacketDecode :
    ([0x03] : Bytes).length < 2 ∧ ∀ b ∈ [(0x00 : Byte), 0x06, 0xFF], b = 0x00 ∨ 6 ≤ b.toNat := by decide

/-- For CmdEncodeResult, StsEncodeResult. -/
theorem witness_PacketEncode :
    32 ≤ (32 : Byte).toNat ∧ (31 : Byte).toNat ≤ 31 ∧ (∀ b ∈ [(0x00 : Byte), 0x06], b = 0x00 ∨ 6 ≤ b.toNat) ∧
    ∀ b ∈ [(0x01 : Byte), 0x05], 1 ≤ b.toNat ∧ b.toNat ≤ 5 := by decide

/-- A legal version record and a legal buffer-info record. -/
def twoRecords : List (Byte × Bytes) := [(0x01, [1, 2, 3]), (0x02, [0x40, 0x00, 0x05])]

theorem twoRecords_legal : ∀ p ∈ twoRecords, recordLegal 0x04 p := by
  intro p hp
  simp only [twoRecords, List.mem_cons, List.not_mem_nil, or_false] at hp
  rcases hp with rfl | rfl <;> simp [recordLegal]

/-- A code of 6 is not legal. -/
theorem codeSix_not_legal : ¬ tripletCodesLegal [0x06, 0x01, 0x00] := fun h => absurd (h 0 (by decide)) (by decide)

theorem witness_CiDecodeFirstFaultDecides :
    itdTypeLegal State.reset.itdTypeCode = true ∧ (∀ p ∈ twoRecords, recordLegal State.reset.itdTypeCode p) ∧
    (¬ typeKnown 0x04 0x00 ∧ ¬ typeKnown 0x04 0x05 ∧ typeKnown 0x04 0x01 ∧ typeKnown 0x04 0x04) ∧
    ([1, 2] : Bytes).length < (0x03 : Byte).toNat ∧
    (lengthBad 0x01 2 ∧ lengthBad 0x01 5 ∧ lengthBad 0x02 4 ∧ lengthBad 0x03 4 ∧ lengthBad 0x04 3) ∧
    (([0x06, 0x01, 0x00] : Bytes).length % 3 = 0 ∧ ¬ tripletCodesLegal [0x06, 0x01, 0x00]) := by
  refine ⟨rfl, twoRecords_legal, ?_, by decide, ?_, rfl, codeSix_not_legal⟩
  · simp [typeKnown]
  · simp [lengthBad]

theorem witness_CiDecodeMandatoryFields :
    itdTypeLegal State.reset.itdTypeCode = true ∧ (∀ p ∈ twoRecords, recordLegal State.reset.itdTypeCode p) ∧
    0x01 ∉ (twoRecords.drop 1).map Prod.fst ∧ 0x02 ∉ (twoRecords.take 1).map Prod.fst ∧
    0x01 ∈ twoRecords.map Prod.fst ∧ 0x02 ∈ twoRecords.map Prod.fst ∧
    ∀ p ∈ twoRecords, p.1 = 0x03 → ∀ j, 3 * j < p.2.length → p.2.getD (3 * j) 0 ≠ 0x00 := by
  refine ⟨rfl, twoRecords_legal, by decide, by decide, by decide, by decide, ?_⟩
  intro p hp h3
  simp only [twoRecords, List.mem_cons, List.not_mem_nil, or_false] at hp
  rcases hp with rfl | rfl <;> simp at h3

/-- Legal records of which no prefix but the whole decodes: an override before the default in one record, several triplets and
a command repeated in a record without the default, two versions, two delays. -/
def mixedRecords : List (Byte × Bytes) :=
  [(0x04, [1, 0, 0, 0]), (0x03, [0x04, 0x01, 0x00, 0x00, 0x02, 0x00]), (0x01, [1, 2, 3]), (0x04, [7, 0, 0, 0]),
   (0x03, [0x04, 0x09, 0x00, 0x01, 0x07, 0x00, 0x04, 0x05, 0x01]), (0x01, [9, 8, 7, 6]), (0x02, [0x40, 0x00, 0x05])]

/-- A value whose every code is at most 5, checked on all of its triplets. -/
theorem codes_legal {v : Bytes} (h : ∀ j < v.length, 3 * j < v.length → (v.getD (3 * j) 0).toNat ≤ 5) : tripletCodesLegal v :=
  fun j hj => h j (by omega) hj

theorem mixedRecords_legal : ∀ p ∈ mixedRecords, recordLegal 0x04 p := by
  intro p hp
  simp only [mixedRecords, List.mem_cons, List.not_mem_nil, or_false] at hp
  rcases hp with rfl | rfl | rfl | rfl | rfl | rfl | rfl
  · exact .inr (.inr (.inr ⟨rfl, rfl⟩))
  · exact .inr (.inr (.inl ⟨rfl, rfl, by decide, codes_legal (by decide)⟩))
  · exact .inl ⟨rfl, .inl rfl⟩
  · exact .inr (.inr (.inr ⟨rfl, rfl⟩))
  · exact .inr (.inr (.inl ⟨rfl, rfl, by decide, codes_legal (by decide)⟩))
  · exact .inl ⟨rfl, .inr rfl⟩
  · exact .inr (.inl ⟨rfl, rfl⟩)

theorem witness_CiDecodeLastWins :
    itdTypeLegal State.reset.itdTypeCode = true ∧ (∀ p ∈ mixedRecords, recordLegal State.reset.itdTypeCode p) ∧
    lastValue mixedRecords 0x01 = some [9, 8, 7, 6] ∧ lastValue mixedRecords 0x02 = some [0x40, 0x00, 0x05] ∧
    lastDefault mixedRecords = some 2 ∧ lastValue mixedRecords 0x04 = some [7, 0, 0, 0] ∧
    (streamTriplets mixedRecords).foldl addOverride [] = [(0x04, 0x0105), (0x01, 7)] ∧
    answers (.ciDecode (stream mixedRecords)) State.reset (.value (.info
      ⟨⟨9, 8, 7, some 6⟩, 5, 64, 2, [(.getImageState, 0x0105), (.getClientInfo, 7)], some 7⟩)) :=
  ⟨rfl, mixedRecords_legal, by decide, by decide, by decide, by decide, by decide, rfl⟩

theorem witness_CiDecodeOrderIndependent :
    (twoRecords ++ [(0x03, [0x00, 0x01, 0x00])]).Perm ((0x03, [0x00, 0x01, 0x00]) :: twoRecords) ∧
    ((twoRecords ++ [(0x03, [0x00, 0x01, 0x00])]).map Prod.fst).Nodup ∧
    (∀ p ∈ twoRecords ++ [(0x03, [0x00, 0x01, 0x00])], p.2.length ≤ 255) ∧
    answers (.ciDecode (stream (twoRecords ++ [(0x03, [0x00, 0x01, 0x00])]))) State.reset (.value (.info rec1)) :=
  ⟨by decide, by decide, by decide, rfl⟩

/-- For CiEncodeResult (both clauses), CiRoundTrip, CiSetDefaultTimeoutsResult, ParameterRowFields. -/
theorem witness_CiOverrides :
    itdTypeLegal State.reset.itdTypeCode = true ∧ (rec1.overrides.map Prod.fst).Nodup ∧
    ({ rec1 with overrides := [(.writeChunk, 50), (.getClientInfo, 10)] }.overrides.map Prod.fst).Nodup ∧
    ¬ (repeated.overrides.map Prod.fst).Nodup := by decide

theorem witness_DelayResults :
    0xFFFFFFFF ≤ 0xFFFFFFFF ∧ 0xFFFFFFFF < 0x100000000 ∧ ([1, 2, 3] : Bytes).length ≠ 4 ∧
    ([1, 2, 3, 4, 5] : Bytes).length ≠ 4 := by decide

/-- A bare start code is the escaping of nothing. -/
theorem bareStart_not_escaping : ∀ d, ([0x56] : Bytes) ≠ serEscape d := by
  intro d h
  cases d with
  | nil => simp [serEscape] at h
  | cons x d =>
    simp only [serEscape] at h
    split at h
    · simp [escapeCode] at h
    · next hx => exact hx (by rw [← (List.cons.inj h).1]; rfl)

/-- For SerUnescapeResult, EscapeRows, SerFrameDecodeErrors. -/
theorem witness_SerUnescape_EscapeRows_SerFrameDecodeErrors :
    (∀ d, ([0x56] : Bytes) ≠ serEscape d) ∧ ((0xCC : Byte) ≠ 0xA9 ∧ (0xCC : Byte) ≠ 0x61 ∧ (0xCC : Byte) ≠ 0x33) ∧
    (0x9E : Byte) ≠ 0x56 ∧ (0x00 : Byte) ≠ 0x9E ∧ ([0xFF] : Bytes).length < 2 ∧
    (0xFC : Byte).toNat + 256 * (0xFF : Byte).toNat ≠ checksumNat [0x03, 0x01] :=
  ⟨bareStart_not_escaping, by decide, by decide, by decide, by decide, by decide⟩

/-- One serial framer. -/
def serIn (st : SerState) (cap : Option Nat) (buf : Bytes) : State := { State.reset with ser := [some ⟨.cmd, cap, st, buf⟩] }

theorem witness_SerByteResult :
    ((serIn .idle (some 2) []).serAt 0 = some ⟨.cmd, some 2, .idle, []⟩ ∧ (0x9E : Byte) ≠ 0x56) ∧
    ((serIn .decoding (some 2) [1, 2]).serAt 0 = some ⟨.cmd, some 2, .decoding, [1, 2]⟩ ∧ some 2 = some ([1, 2] : Bytes).length ∧
      (0xCC : Byte) ≠ 0x56 ∧ (0xCC : Byte) ≠ 0x9E) ∧
    ((serIn .decoding (some 2) [1]).serAt 0 = some ⟨.cmd, some 2, .decoding, [1]⟩ ∧ some 2 ≠ some ([1] : Bytes).length) := by
  decide

theorem witness_SerialFrameFeed :
    (serIn .idle (some 4) []).serAt 0 = some ⟨.cmd, some 4, .idle, []⟩ ∧ 0x56 ∉ ([0x9E, 0xCC, 0x00] : Bytes) ∧
    (∀ n, some 4 = some n → (serEscape (frameSeal [0x03, 0x01])).length ≤ n) ∧
    ((runAll (serFeed 0 ([0x9E, 0xCC, 0x00] ++ serFrameEncode [0x03, 0x01])) (serIn .idle (some 4) [])).map Prod.snd =
      some (List.replicate 8 (.result .none) ++ [.result (.cmd ⟨3, false, .getClientInfo, []⟩)])) := by
  refine ⟨by decide, by decide, ?_, by decide⟩
  rintro n ⟨⟩
  decide

/-- For I2cWriteResult, I2cPollResult, I2cStatusRows, I2cLengthResult, I2cResponseResult, I2cAlwaysCompletes. -/
theorem witness_I2c :
    (∀ p ∈ [I2cPhase.command, .responseStatus, .responseLength],
      (i2cIn p none).i2cAt 0 = some ⟨0, .ignore, p, none⟩ ∧ p ≠ .response) ∧
    (i2cIn .response (some 4)).i2cAt 0 = some ⟨0, .ignore, .response, some 4⟩ ∧
    (0xFC : Byte).toNat + 256 * (0xFF : Byte).toNat ≠ checksumNat [0x03, 0x01] ∧ ([0xFF] : Bytes).length < 2 ∧
    ([0x13, 0x00, 0xEC] : Bytes).length < 4 ∧
    ([0x03, 0x09] : Bytes).length + 2 = (4 : U16).toNat + 0 ∧ ([0x03, 0x09, 0xFC] : Bytes).length < (4 : U16).toNat + 0 ∧
    (1 : U16).toNat + 0 < 2 := by decide

theorem witness_I2cRetryOnFailure :
    target (.i2cTxn 0 .read 0x20 []) = some (.i2c, (0 : Byte).toNat) ∧
    exec (.i2cTxn 0 .read 0x20 []) (i2cIn .responseStatus none) =
      .next ((i2cIn .responseStatus none).emit (.result (.err (.framingError .tooShort) (.i2c .responseStatus)))) :=
  ⟨rfl, rfl⟩

theorem witness_I2cFullCycle :
    (i2cIn .command none).i2cAt 0 = some ⟨0, .ignore, .command, none⟩ ∧ (0x03 : Byte).toNat / 2 % 2 = 1 ∧
    (4 : U16).toNat + 0 = ([0x43, 0x01] : Bytes).length + 2 := by decide

/-- For SpiWriteResult, SpiNotReadyResult, SpiLenResult. -/
theorem witness_Spi :
    (spiIn none).spiAt 0 = some ⟨0, none⟩ ∧ (spiIn (some 4)).spiAt 0 = some ⟨0, some 4⟩ ∧
    (0xFC : Byte).toNat + 256 * (0xFF : Byte).toNat ≠ checksumNat [0x03, 0x01] ∧ ([0xFF] : Bytes).length < 2 ∧
    ([0x00, 0x4C, 0x45] : Bytes).length < 4 ∧
    (([0x00, 0x4C, 0x45, 0x4F] : Bytes).drop 1).take 3 ≠ [0x4C, 0x45, 0x4E] ∧
    (([0x00, 0x4C, 0x45, 0x4F] : Bytes).drop 1).take 3 ≠ [0x52, 0x53, 0x50] ∧ ([0x13, 0x00, 0xEC] : Bytes).length < 4 := by
  decide

theorem witness_SpiRspResult :
    ([0x43, 0x01, 0xBC, 0xFE, 0x00] : Bytes) = [0x43, 0x01] ++ [0xBC, 0xFE] ++ [0x00] ∧
    (∀ l, some (4 : U16) = some l → ([0x43, 0x01] : Bytes).length + 2 = l.toNat + 0) ∧
    (∀ l, some (4 : U16) = some l → ([0x43, 0x01, 0xBC] : Bytes).length < l.toNat + 0 ∨ l.toNat + 0 < 2) ∧
    (∀ l, some (1 : U16) = some l → ([0x43, 0x01, 0xBC] : Bytes).length < l.toNat + 0 ∨ l.toNat + 0 < 2) ∧
    ((spiIn none).spiAt 0 = some ⟨0, none⟩ ∧ ([0x43, 0x01, 0xBC, 0xFE] : Bytes) = [0x43, 0x01] ++ [0xBC, 0xFE] ++ []) ∧
    (∀ l, (none : Option U16) = some l → False) ∧ ([0x43] : Bytes).length < 2 := by
  refine ⟨rfl, ?_, ?_, ?_, ⟨rfl, rfl⟩, by simp, by decide⟩ <;> rintro l ⟨⟩ <;> decide

theorem witness_SpiTxnCompletes :
    (∀ b rest, ([] : Bytes) = b :: rest → b ≠ 0x11 ∧ b ≠ 0x55) ∧
    (∀ b rest, ([0x12] : Bytes) = b :: rest → b ≠ 0x11 ∧ b ≠ 0x55) := by
  refine ⟨by simp, ?_⟩
  intro b rest h
  obtain ⟨rfl, -⟩ := List.cons.inj h
  decide

theorem witness_WireInputsRunTheirUnit :
    State.reset.itdTypeCode = 0x04 ∧
    State.reset.serAt 1 = some ⟨.rsp, none, .idle, []⟩ ∧ State.reset.spiAt 0 = some ⟨0, none⟩ := by decide

theorem witness_SessionResultRule :
    { State.reset with sess := [some ⟨some .getClientInfo⟩] }.sessAt 0 = some ⟨some .getClientInfo⟩ ∧
    (⟨3, false, .success, ci1⟩ : StatusPacket).status = .success ∧
    (⟨3, false, .notSupported, []⟩ : StatusPacket).status ≠ .success ∧
    State.reset.sessAt 0 = some ⟨none⟩ ∧ (∀ p, Result.notReady ≠ .cmd p) ∧ (∀ q, Result.notReady ≠ .sts q) :=
  ⟨by decide, rfl, by decide, by decide, by simp, by simp⟩

theorem witness_FramerResetResult :
    (serIn .decoding (some 3) [3]).serAt 0 = some ⟨.cmd, some 3, .decoding, [3]⟩ ∧
    (i2cIn .response (some 19)).i2cAt 0 = some ⟨0, .ignore, .response, some 19⟩ ∧
    (spiIn (some 19)).spiAt 0 = some ⟨0, some 19⟩ ∧ State.reset.sessAt 0 = some ⟨none⟩ := by decide

theorem witness_MissingAgentRefused :
    (∀ b ∈ [(0x33 : Byte), 0x35, 0x00, 0xFF], b ≠ 0x34 ∧ b ≠ 0x40 ∧ b ≠ 0x50 ∧ b ≠ 0x60) ∧
    target (.serByte 2 0x56) = some (.ser, 2) ∧ hasAgent State.reset .ser 2 = false ∧
    target (.framerReset 0x60 1) = some (.sess, 1) ∧ hasAgent State.reset .sess 1 = false := by decide

/-- An agent that is there, with a partial frame; and one that is not. -/
theorem witness_StepDiscardsAgent :
    hasAgent (serIn .decoding none [0x43]) .ser 0 = true ∧
    step { serIn .decoding none [0x43] with pending := [.discard .ser 0] } = .next { State.reset with ser := [none] } ∧
    hasAgent (pend (.discard .sess 1)) .sess 1 = false ∧
    step (pend (.discard .sess 1)) = .refused (.noInstance .sess 1) := ⟨rfl, rfl, rfl, rfl⟩

/-- R362: the partial frame is lost with the instance that a new one replaces, and with one that is discarded. -/
theorem test_replace_discards :
    step { serIn .decoding none [0x43] with pending := [.create (.ser 0 .rsp none)] } =
      .next { State.reset with ser := [some ⟨.rsp, none, .idle, []⟩] } ∧
    exec (.serByte 0 0x9E) { State.reset with ser := [none] } = .refused (.noInstance .ser 0) := ⟨rfl, rfl⟩

theorem witness_ErrorNumbers :
    (ErrorKind.framingError .badEnd).code = ErrorKind.code (.framingError .badEnd) ∧
    (ErrorKind.framingError .badEnd).sub = 0x02 := by decide

end

end Sys2Proof.Tests
end

section
/-! Proofs about the machine's step and the good states (00_scope.md R9; 10_state.md R24, R25, R27, R36, R39): what a step can
do, said once; which operations keep an agent good; then the three statements of the family. -/

namespace Sys2Proof.Machine

open Sys2Proof.Spec

/-! ## What one step can do, by the host's oldest action -/

section Step

variable {s t : State} {rest : List HostAction}

/-- R345: the block holds its state. -/
theorem step_of_idle (h : s.pending = []) : step s = .next s := by
  simp [step, h]

theorem step_of_create {c : Creation} (h : s.pending = .create c :: rest) :
    step s = create (s.withPending rest) c := by
  simp [step, h]

theorem step_of_discard {unit : UnitClass} {k : Nat} (h : s.pending = .discard unit k :: rest) :
    step s = discardAgent (s.withPending rest) unit k := by
  simp [step, h]

theorem step_of_deliver {src : Source} {bs : Bytes} {i : Instr} (h : s.pending = .deliver src bs :: rest)
    (hd : decode s.itdTypeCode src bs = .ok i) : step s = exec i (s.withPending rest) := by
  simp [step, h, hd]

theorem step_of_deliver_error {src : Source} {bs : Bytes} {e : DecodeError} (h : s.pending = .deliver src bs :: rest)
    (hd : decode s.itdTypeCode src bs = .error e) : step s = .refused (.undecodable e) := by
  simp [step, h, hd]

/-- If a step answers a next state, the block was idle, or its oldest action was a creation, a discard or the delivery of an
instruction that answers that state. -/
theorem step_next (h : step s = .next t) :
    (s.pending = [] ∧ t = s) ∨
      (∃ c rest, s.pending = .create c :: rest ∧ create (s.withPending rest) c = .next t) ∨
      (∃ unit k rest, s.pending = .discard unit k :: rest ∧ discardAgent (s.withPending rest) unit k = .next t) ∨
      (∃ src bs rest i, s.pending = .deliver src bs :: rest ∧ decode s.itdTypeCode src bs = .ok i ∧
        exec i (s.withPending rest) = .next t) := by
  cases hp : s.pending with
  | nil =>
    rw [step_of_idle hp] at h
    cases h
    exact .inl ⟨rfl, rfl⟩
  | cons a rest =>
    cases a with
    | create c =>
      rw [step_of_create hp] at h
      exact .inr (.inl ⟨c, rest, rfl, h⟩)
    | discard unit k =>
      rw [step_of_discard hp] at h
      exact .inr (.inr (.inl ⟨unit, k, rest, rfl, h⟩))
    | deliver src bs =>
      cases hd : decode s.itdTypeCode src bs with
      | ok i =>
        rw [step_of_deliver hp hd] at h
        exact .inr (.inr (.inr ⟨src, bs, rest, i, rfl, hd, h⟩))
      | error e =>
        rw [step_of_deliver_error hp hd] at h
        cases h

end Step

/-! ## The legal parameters (R9, R151) and the creation -/

theorem capLegal_iff {cap : Option Nat} : capLegal cap = true ↔ ∀ n, cap = some n → 2 ≤ n := by
  cases cap <;> simp [capLegal]

theorem adjustLegal_iff {n : Nat} : adjustLegal n = true ↔ n = 0 ∨ n = 2 := by
  simp [adjustLegal]

theorem bit7Legal_iff {m : Bit7Mode} : bit7Legal m = true ↔ m = .ignore := by
  cases m <;> simp [bit7Legal]

theorem itdTypeLegal_iff {p5 : Byte} : itdTypeLegal p5 = true ↔ p5 ≠ 0x01 ∧ p5 ≠ 0x02 ∧ p5 ≠ 0x03 := by
  simp [itdTypeLegal, versionType, bufferInfoType, timeoutsType, and_assoc]

/-- R36, R151: no such agent or codec is made. -/
theorem create_of_illegal {s : State} {c : Creation} (h : creationLegal c ≠ true) :
    create s c = .refused .illegalParameter := by
  simp [create, h]

section Creation

variable {s : State} {rest : List HostAction} {k adjust : Nat} {dir : Dir} {cap : Option Nat} {m : Bit7Mode} {p5 : Byte}

theorem step_creates_ser (h : s.pending = .create (.ser k dir cap) :: rest) (hc : capLegal cap = true) :
    step s = .next { s with pending := rest, ser := putSlot s.ser k (SerFramer.reset dir cap) } := by
  simp [step_of_create h, create, creationLegal, hc, State.withPending]

theorem step_creates_i2c (h : s.pending = .create (.i2c k adjust m) :: rest) (ha : adjustLegal adjust = true)
    (hm : bit7Legal m = true) :
    step s = .next { s with pending := rest, i2c := putSlot s.i2c k (I2cFramer.reset adjust m) } := by
  simp [step_of_create h, create, creationLegal, ha, hm, State.withPending]

theorem step_creates_spi (h : s.pending = .create (.spi k adjust) :: rest) (ha : adjustLegal adjust = true) :
    step s = .next { s with pending := rest, spi := putSlot s.spi k (SpiFramer.reset adjust) } := by
  simp [step_of_create h, create, creationLegal, ha, State.withPending]

theorem step_creates_sess (h : s.pending = .create (.sess k) :: rest) :
    step s = .next { s with pending := rest, sess := putSlot s.sess k SessionUnit.reset } := by
  simp [step_of_create h, create, creationLegal, State.withPending]

theorem step_creates_codec (h : s.pending = .create (.codec p5) :: rest) (ht : itdTypeLegal p5 = true) :
    step s = .next { s with pending := rest, itdTypeCode := p5 } := by
  simp [step_of_create h, create, creationLegal, ht, State.withPending]

theorem step_refuses_creation {c : Creation} (h : s.pending = .create c :: rest) (hc : creationLegal c ≠ true) :
    step s = .refused .illegalParameter := by
  rw [step_of_create h, create_of_illegal hc]

end Creation

theorem newAgent_putSlot {α : Type} (l : List (Option α)) (k : Nat) (u : α) : newAgent l (putSlot l k u) k u :=
  ⟨putSlot_same l k u, fun _ hj => putSlot_other l u hj⟩

/-! ## A property of every agent of a class -/

/-- Every agent in the slots of a class has the property: the form in which `State.Good` speaks of each class. -/
def EveryAgent {α : Type} (P : α → Prop) (l : List (Option α)) : Prop := ∀ o ∈ l, ∀ u ∈ o, P u

theorem State.good_iff {s : State} :
    s.Good ↔ itdTypeLegal s.itdTypeCode = true ∧ EveryAgent SerFramer.Good s.ser ∧ EveryAgent I2cFramer.Good s.i2c ∧
      EveryAgent SpiFramer.Good s.spi := Iff.rfl

section EveryAgent

variable {α : Type} {P : α → Prop} {l : List (Option α)} {k : Nat} {u : α}

theorem everyAgent_iff : EveryAgent P l ↔ ∀ u, some u ∈ l → P u :=
  ⟨fun h u hu => h (some u) hu u rfl, fun h _ ho u hu => h u (Option.mem_def.mp hu ▸ ho)⟩

/-- The agent that a request finds in its slot has the property. -/
theorem EveryAgent.of_slot (h : EveryAgent P l) (hu : l[k]?.join = some u) : P u :=
  everyAgent_iff.mp h u (List.mem_of_getElem? (Option.join_eq_some_iff.mp hu))

/-- One agent's step, to an agent with the property. -/
theorem EveryAgent.set (h : EveryAgent P l) (hu : P u) : EveryAgent P (l.set k (some u)) := by
  refine everyAgent_iff.mpr fun v hv => ?_
  rcases List.mem_or_eq_of_mem_set hv with hv | hv
  · exact everyAgent_iff.mp h v hv
  · exact Option.some.inj hv ▸ hu

/-- A discard takes an agent away and brings none. -/
theorem EveryAgent.set_none (h : EveryAgent P l) : EveryAgent P (l.set k none) := by
  refine everyAgent_iff.mpr fun v hv => ?_
  rcases List.mem_or_eq_of_mem_set hv with hv | hv
  · exact everyAgent_iff.mp h v hv
  · cases hv

/-- A creation, of an agent with the property. -/
theorem EveryAgent.putSlot (h : EveryAgent P l) (hu : P u) : EveryAgent P (putSlot l k u) := by
  refine everyAgent_iff.mpr fun v hv => ?_
  rcases mem_putSlot hv with rfl | hv
  · exact hu
  · exact everyAgent_iff.mp h v hv

end EveryAgent

/-! ## Each agent's operations keep it good -/

/-- An empty buffer is good in either state: the reset state, a start code, the end of a frame. -/
theorem SerFramer.good_of_buf_nil {u : SerFramer} (hcap : capLegal u.cap = true) (hbuf : u.buf = []) : u.Good := by
  simp [SerFramer.Good, hcap, hbuf]

theorem SerFramer.good_reset {dir : Dir} {cap : Option Nat} (h : capLegal cap = true) : (SerFramer.reset dir cap).Good :=
  good_of_buf_nil h rfl

/-- R24, R25: a byte is appended only while decoding, when it is no delimiter and the buffer is below its capacity. -/
theorem SerFramer.Good.append {u : SerFramer} {b : Byte} (h : u.Good) (hs : u.state = .decoding) (hb : b ≠ startCode)
    (he : b ≠ endCode) (hfull : ∀ n, u.cap = some n → u.buf.length ≠ n) :
    SerFramer.Good { u with buf := u.buf ++ [b] } := by
  obtain ⟨hcap, -, hstart, hend, hlen⟩ := h
  refine ⟨hcap, fun hidle => ?_, ?_, ?_, fun n hn => ?_⟩
  · cases hs.symm.trans hidle
  · simp [hstart, hb.symm]
  · simp [hend, he.symm]
  · have hle : u.buf.length ≤ n := hlen n hn
    have hne : u.buf.length ≠ n := hfull n hn
    simp only [List.length_append, List.length_singleton]
    omega

theorem SerFramer.Good.serByte {u : SerFramer} (h : u.Good) (b : Byte) : (serByte b u).1.Good := by
  have hcap : capLegal u.cap = true := h.1
  rcases serByte_cases b u with e | e | ⟨e, hs, hb, he, hfull⟩ | e <;> rw [e]
  · exact h
  · exact good_of_buf_nil hcap rfl
  · exact h.append hs hb he hfull
  · exact good_of_buf_nil hcap rfl

theorem SerFramer.Good.resetSer {u : SerFramer} (h : u.Good) : (resetSer u).1.Good :=
  good_of_buf_nil h.1 rfl

theorem I2cFramer.good_reset {adjust : Nat} {m : Bit7Mode} (ha : adjustLegal adjust = true) (hm : bit7Legal m = true) :
    (I2cFramer.reset adjust m).Good :=
  ⟨ha, hm, by simp [I2cFramer.reset]⟩

/-- R27: the response length comes with phase RESPONSE and goes with it. -/
theorem I2cFramer.Good.i2cTxn {u u' : I2cFramer} {rw : Rw} {data : Bytes} {r : Result} (h : u.Good)
    (ht : i2cTxn rw data u = some (u', r)) : u'.Good := by
  obtain ⟨ha, hm, hlen⟩ := h
  rcases i2cTxn_cases ht with rfl | rfl | ⟨hp, rfl⟩ | ⟨-, l, rfl⟩ | ⟨-, rfl⟩ <;> refine ⟨ha, hm, ?_⟩
  · exact hlen
  · simp
  · have hnone : u.rspLen = none := by simpa [hp] using hlen
    simp [hnone]
  · simp
  · simp

theorem I2cFramer.Good.resetI2c {u u' : I2cFramer} {r : Result} (h : u.Good) (hr : resetI2c u = some (u', r)) :
    u'.Good := by
  obtain ⟨ha, hm, -⟩ := h
  cases hr
  exact ⟨ha, hm, by simp⟩

/-- R36: no transaction writes the parameter. -/
theorem SpiFramer.Good.spiTxn {u : SpiFramer} (h : u.Good) (mosi miso : Bytes) : (spiTxn mosi miso u).1.Good := by
  rcases spiTxn_cases mosi miso u with e | e | ⟨l, e⟩ <;> rw [e] <;> exact h

/-! ## Each kind of step keeps the state good -/

section

variable {s t : State}

theorem State.Good.create {c : Creation} (h : s.Good) (hc : create s c = .next t) : t.Good := by
  obtain ⟨hp5, hser, hi2c, hspi⟩ := State.good_iff.mp h
  obtain ⟨hlegal, hkind⟩ := create_next hc
  rcases hkind with ⟨k, dir, cap, rfl, rfl⟩ | ⟨k, adjust, m, rfl, rfl⟩ | ⟨k, adjust, rfl, rfl⟩ | ⟨k, rfl, rfl⟩ |
    ⟨p5, rfl, rfl⟩
  · exact State.good_iff.mpr ⟨hp5, hser.putSlot (SerFramer.good_reset hlegal), hi2c, hspi⟩
  · obtain ⟨ha, hm⟩ : adjustLegal adjust = true ∧ bit7Legal m = true := by simpa [creationLegal] using hlegal
    exact State.good_iff.mpr ⟨hp5, hser, hi2c.putSlot (I2cFramer.good_reset ha hm), hspi⟩
  · exact State.good_iff.mpr ⟨hp5, hser, hi2c, hspi.putSlot hlegal⟩
  · exact h
  · exact State.good_iff.mpr ⟨hlegal, hser, hi2c, hspi⟩

theorem State.Good.discardAgent {unit : UnitClass} {k : Nat} (h : s.Good) (hd : discardAgent s unit k = .next t) :
    t.Good := by
  obtain ⟨hp5, hser, hi2c, hspi⟩ := State.good_iff.mp h
  obtain ⟨-, hclass⟩ := discardAgent_next hd
  rcases hclass with ⟨-, rfl⟩ | ⟨-, rfl⟩ | ⟨-, rfl⟩ | ⟨-, rfl⟩
  · exact State.good_iff.mpr ⟨hp5, hser.set_none, hi2c, hspi⟩
  · exact State.good_iff.mpr ⟨hp5, hser, hi2c.set_none, hspi⟩
  · exact State.good_iff.mpr ⟨hp5, hser, hi2c, hspi.set_none⟩
  · exact h

/-- An instruction writes the port alone, or also the one agent it names, by one of that agent's two operations. -/
theorem State.Good.exec {i : Instr} (h : s.Good) (he : exec i s = .next t) : t.Good := by
  obtain ⟨hp5, hser, hi2c, hspi⟩ := State.good_iff.mp h
  cases exec_next he with
  | pure r _ ht => exact ht ▸ h
  | ser k f u _ hu hf ht =>
    have hgood : u.Good := hser.of_slot hu
    have hnew : (f u).1.Good := by
      rcases hf with rfl | ⟨b, rfl⟩
      · exact hgood.resetSer
      · exact hgood.serByte b
    exact ht ▸ State.good_iff.mpr ⟨hp5, hser.set hnew, hi2c, hspi⟩
  | i2c k f u u' r _ hu hf hr ht =>
    have hgood : u.Good := hi2c.of_slot hu
    have hnew : u'.Good := by
      rcases hf with rfl | ⟨rw, data, rfl⟩
      · exact hgood.resetI2c hr
      · exact hgood.i2cTxn hr
    exact ht ▸ State.good_iff.mpr ⟨hp5, hser, hi2c.set hnew, hspi⟩
  | spi k f u _ hu hf ht =>
    have hgood : u.Good := hspi.of_slot hu
    have hnew : (f u).1.Good := by
      rcases hf with rfl | ⟨mosi, miso, rfl⟩
      · exact hgood
      · exact hgood.spiTxn mosi miso
    exact ht ▸ State.good_iff.mpr ⟨hp5, hser, hi2c, hspi.set hnew⟩
  | sess k f u _ _ _ ht => exact ht ▸ h

theorem State.Good.step (h : s.Good) (hstep : step s = .next t) : t.Good := by
  have htaken (rest : List HostAction) : (s.withPending rest).Good := h
  rcases step_next hstep with ⟨-, rfl⟩ | ⟨c, rest, -, hc⟩ | ⟨unit, k, rest, -, hd⟩ | ⟨src, bs, rest, i, -, -, he⟩
  · exact h
  · exact (htaken rest).create hc
  · exact (htaken rest).discardAgent hd
  · exact (htaken rest).exec he

end

/-! ## The state after reset -/

/-- R39: each class's agents after reset are in their reset states with the defaults of R9. -/
theorem State.good_reset : State.reset.Good := by
  refine State.good_iff.mpr ⟨by decide, everyAgent_iff.mpr ?_, everyAgent_iff.mpr ?_, everyAgent_iff.mpr ?_⟩
  · intro u hu
    obtain rfl | rfl : u = SerFramer.reset .cmd Config.frameBufCap ∨ u = SerFramer.reset .rsp Config.frameBufCap := by
      simpa [State.reset] using hu
    · exact SerFramer.good_reset rfl
    · exact SerFramer.good_reset rfl
  · intro u hu
    obtain rfl : u = I2cFramer.reset Config.i2cRspLenAdjust .ignore := by simpa [State.reset] using hu
    exact I2cFramer.good_reset rfl rfl
  · intro u hu
    obtain rfl : u = SpiFramer.reset Config.spiRspLenAdjust := by simpa [State.reset] using hu
    rfl

/-! ## The statements -/

/-- Settles O6: an invariant step lemma, by the kind of the host's oldest action. -/
theorem stepKeepsGoodState : Obligations.StepKeepsGoodState :=
  fun _ _ h hstep => h.step hstep

/-- Settles O2, clause by clause: the premise of each creation is `creationLegal`, written out. -/
theorem stepCreatesOrHolds : Obligations.StepCreatesOrHolds := by
  refine ⟨fun s hp => step_of_idle hp, ?ser, ?i2c, ?spi, ?sess, ?codec⟩
  case ser =>
    intro s rest k dir cap hp
    refine ⟨fun hcap => ⟨_, step_creates_ser hp (capLegal_iff.mpr hcap), newAgent_putSlot _ _ _⟩, fun hcap => ?_⟩
    exact step_refuses_creation hp (mt capLegal_iff.mp hcap)
  case i2c =>
    intro s rest k adjust m hp
    constructor
    · rintro ⟨ha, hm⟩
      exact ⟨_, step_creates_i2c hp (adjustLegal_iff.mpr ha) (bit7Legal_iff.mpr hm), newAgent_putSlot _ _ _⟩
    · intro hbad
      refine step_refuses_creation hp fun hlegal => hbad ?_
      simpa [creationLegal, adjustLegal_iff, bit7Legal_iff] using hlegal
  case spi =>
    intro s rest k adjust hp
    refine ⟨fun ha => ⟨_, step_creates_spi hp (adjustLegal_iff.mpr ha), newAgent_putSlot _ _ _⟩, fun ha => ?_⟩
    exact step_refuses_creation hp (mt adjustLegal_iff.mp ha)
  case sess =>
    intro s rest k hp
    exact ⟨_, step_creates_sess hp, newAgent_putSlot _ _ _⟩
  case codec =>
    intro s rest p5 hp
    refine ⟨fun ht => step_creates_codec hp (itdTypeLegal_iff.mpr ht), fun ht => ?_⟩
    refine step_refuses_creation hp fun hlegal => ?_
    obtain ⟨h1, h2, h3⟩ := itdTypeLegal_iff.mp hlegal
    rcases ht with ht | ht | ht
    · exact h1 ht
    · exact h2 ht
    · exact h3 ht

/-- Settles O7: the invariant by the reset state of each class, the values by looking at each agent there is. -/
theorem resetStateIsGood : Obligations.ResetStateIsGood := by
  refine ⟨State.good_reset, ?ser, ?i2c, ?spi, ?sess, rfl⟩
  case ser => simp [State.reset, SerFramer.reset, Config.frameBufCap]
  case i2c => simp [State.reset, I2cFramer.reset, Config.i2cRspLenAdjust]
  case spi => simp [State.reset, SpiFramer.reset, Config.spiRspLenAdjust]
  case sess => simp [State.reset, SessionUnit.reset]

end Sys2Proof.Machine
end

section
/-! Proofs about what an instruction and a step can touch (10_state.md R20, R27, R36, R57, R58; 46_session.md R313, R362): how
exec runs each instruction, said once for its refusals and faults as `exec_next` says it for its next states; then the
statements on faults, on missing agents, on the frame of exec and on the parameters. -/

namespace Sys2Proof.Machine

/-! ## An instruction answers, is refused by name, or runs the step of the agent it names -/

/-- How exec runs an instruction `i` in a state `s`. The function is named for the
I2C framer alone, whose step can be a fault. -/
inductive Runs (i : Instr) (s : State) : Prop where
  | pure (r : Result) (ht : target i = none) (h : exec i s = answer s r)
  | illFormed (ht : target i = none) (h : exec i s = .refused .illFormedRecord)
  | unknownUnit (b : Byte) (ht : target i = none) (h : exec i s = .refused (.unknownUnitClass b))
  | ser (k : Byte) (f : SerFramer → SerFramer × Result) (ht : target i = some (.ser, k.toNat))
      (h : exec i s = stepSer s k f)
  | i2c (k : Byte) (f : I2cFramer → Option (I2cFramer × Result)) (ht : target i = some (.i2c, k.toNat))
      (hf : f = resetI2c ∨ ∃ rw data, f = i2cTxn rw data) (h : exec i s = stepI2c s k f)
  | spi (k : Byte) (f : SpiFramer → SpiFramer × Result) (ht : target i = some (.spi, k.toNat))
      (h : exec i s = stepSpi s k f)
  | sess (k : Byte) (f : SessionUnit → SessionUnit × Reply) (ht : target i = some (.sess, k.toNat))
      (h : exec i s = stepSess s k f)

/-- FRAMER_RESET runs the step of the class its operand byte names (R71, R314). -/
theorem runs_framerReset (b k : Byte) (s : State) : Runs (.framerReset b k) s := by
  cases hc : UnitClass.ofByte b with
  | none => exact .unknownUnit b (by simp [target, hc]) (by simp [exec, execFramerReset, hc])
  | some c =>
    have ht : target (.framerReset b k) = some (c, k.toNat) := by simp [target, hc]
    cases c with
    | ser => exact .ser k resetSer ht (by simp [exec, execFramerReset, hc])
    | i2c => exact .i2c k resetI2c ht (.inl rfl) (by simp [exec, execFramerReset, hc])
    | spi => exact .spi k resetSpi ht (by simp [exec, execFramerReset, hc])
    | sess => exact .sess k resetSess ht (by simp [exec, execFramerReset, hc])

/-- CI_ENCODE answers, or refuses a record with a repeated override code (R160). -/
theorem runs_ciEncode (ci : ClientInfo) (s : State) : Runs (.ciEncode ci) s := by
  by_cases hwf : ci.wf = true
  · exact .pure (.value (.bytes (ciEncode s.itdTypeCode ci))) rfl (by simp [exec, execCiEncode, hwf])
  · exact .illFormed rfl (by simp [exec, execCiEncode, hwf])

theorem exec_runs (i : Instr) (s : State) : Runs i s := by
  cases i with
  | serByte k _ | serStart k | serEnd k => exact .ser k _ rfl rfl
  | i2cTxn k rw _ data => exact .i2c k _ rfl (.inr ⟨rw, data, rfl⟩) rfl
  | i2cCmdReady k _ _ | i2cRspReady k _ _ _ | i2cBit7 k _ _ => exact .i2c k _ rfl (.inr ⟨.read, _, rfl⟩) rfl
  | spiTxn k _ _ | spiWrite k _ _ | spiRead k _ _ | spiTagLen k _ _ _ | spiTagRsp k _ _ _ => exact .spi k _ rfl rfl
  | sessionResult k _ => exact .sess k _ rfl rfl
  | framerReset b k => exact runs_framerReset b k s
  | ciEncode ci => exact runs_ciEncode ci s
  | _ => exact .pure _ rfl rfl

/-! ## Faults -/

/-- R241: the only transaction without an outcome is a read in RESPONSE without a response length. -/
theorem i2cTxn_completes {u : I2cFramer} (h : u.phase = .response → u.rspLen ≠ none) (rw : Rw) (data : Bytes) :
    ∃ u' r, i2cTxn rw data u = some (u', r) := by
  cases rw with
  | write => exact ⟨_, _, rfl⟩
  | read =>
    cases hp : u.phase with
    | command | responseStatus | responseLength => exact ⟨_, _, by simp only [i2cTxn, i2cRead, hp]; rfl⟩
    | response =>
      obtain ⟨l, hl⟩ := Option.ne_none_iff_exists'.mp (h hp)
      exact ⟨_, _, by simp only [i2cTxn, i2cRead, hp, hl]; rfl⟩

/-- An instruction faults only where a transaction of the I2C framer it names has no outcome. -/
theorem exec_fault {i : Instr} {s : State} {e : Fault} (h : exec i s = .fault e) :
    ∃ k u rw data, s.i2cAt k = some u ∧ i2cTxn rw data u = none := by
  cases exec_runs i s with
  | pure r _ hr => cases hr.symm.trans h
  | illFormed _ hr => cases hr.symm.trans h
  | unknownUnit b _ hr => cases hr.symm.trans h
  | ser k f _ hr => exact absurd (hr.symm.trans h) (stepSer_ne_fault e)
  | i2c k f _ hf hr =>
    obtain ⟨u, hu, hnone⟩ := stepI2c_fault (hr.symm.trans h)
    rcases hf with rfl | ⟨rw, data, rfl⟩
    · cases hnone
    · exact ⟨k, u, rw, data, hu, hnone⟩
  | spi k f _ hr => exact absurd (hr.symm.trans h) (stepSpi_ne_fault e)
  | sess k f _ hr => exact absurd (hr.symm.trans h) (stepSess_ne_fault e)

theorem State.Good.exec_ne_fault {s : State} (h : s.Good) (i : Instr) (e : Fault) : Machine.exec i s ≠ .fault e := by
  intro he
  obtain ⟨k, u, rw, data, hu, hnone⟩ := exec_fault he
  obtain ⟨-, -, hi2c, -⟩ := State.good_iff.mp h
  obtain ⟨-, -, hlen⟩ : u.Good := hi2c.of_slot hu
  obtain ⟨u', r, hsome⟩ := i2cTxn_completes hlen.mp rw data
  cases hnone.symm.trans hsome

/-- Settles O8, by the kind of the host's oldest action: only an instruction could fault, and R27 rules that out. -/
theorem goodStateNeverFaults : Obligations.GoodStateNeverFaults := by
  intro s e h
  have htaken (rest : List HostAction) : (s.withPending rest).Good := h
  cases hp : s.pending with
  | nil => simp [step_of_idle hp]
  | cons a rest =>
    cases a with
    | create c => exact step_of_create hp ▸ create_ne_fault e
    | discard unit k => exact step_of_discard hp ▸ discardAgent_ne_fault e
    | deliver src bs =>
      cases hd : decode s.itdTypeCode src bs with
      | ok i => exact step_of_deliver hp hd ▸ (htaken rest).exec_ne_fault i e
      | error err => simp [step_of_deliver_error hp hd]

/-! ## Missing agents -/

section MissingAgent

variable {s : State} {k : Byte}

theorem stepSer_of_missing {f : SerFramer → SerFramer × Result} (h : hasAgent s .ser k.toNat = false) :
    stepSer s k f = .refused (.noInstance .ser k.toNat) := by
  have hnone : s.serAt k = none := by simpa [hasAgent, State.serAt] using h
  simp [stepSer, hnone]

theorem stepI2c_of_missing {f : I2cFramer → Option (I2cFramer × Result)} (h : hasAgent s .i2c k.toNat = false) :
    stepI2c s k f = .refused (.noInstance .i2c k.toNat) := by
  have hnone : s.i2cAt k = none := by simpa [hasAgent, State.i2cAt] using h
  simp [stepI2c, hnone]

theorem stepSpi_of_missing {f : SpiFramer → SpiFramer × Result} (h : hasAgent s .spi k.toNat = false) :
    stepSpi s k f = .refused (.noInstance .spi k.toNat) := by
  have hnone : s.spiAt k = none := by simpa [hasAgent, State.spiAt] using h
  simp [stepSpi, hnone]

theorem stepSess_of_missing {f : SessionUnit → SessionUnit × Reply} (h : hasAgent s .sess k.toNat = false) :
    stepSess s k f = .refused (.noInstance .sess k.toNat) := by
  have hnone : s.sessAt k = none := by simpa [hasAgent, State.sessAt] using h
  simp [stepSess, hnone]

end MissingAgent

/-- Log 7: an instruction on an agent that is not there is refused with the agent's class and index. -/
theorem exec_of_missing {i : Instr} {s : State} {c : UnitClass} {n : Nat} (ht : target i = some (c, n))
    (h : hasAgent s c n = false) : exec i s = .refused (.noInstance c n) := by
  cases exec_runs i s with
  | pure r hi _ => cases hi.symm.trans ht
  | illFormed hi _ => cases hi.symm.trans ht
  | unknownUnit b hi _ => cases hi.symm.trans ht
  | ser k f hi hr =>
    cases hi.symm.trans ht
    rw [hr, stepSer_of_missing h]
  | i2c k f hi _ hr =>
    cases hi.symm.trans ht
    rw [hr, stepI2c_of_missing h]
  | spi k f hi hr =>
    cases hi.symm.trans ht
    rw [hr, stepSpi_of_missing h]
  | sess k f hi hr =>
    cases hi.symm.trans ht
    rw [hr, stepSess_of_missing h]

/-- R71: the four class bytes of FRAMER_RESET. -/
theorem unitClass_ofByte_none {b : Byte} (hser : b ≠ 0x34) (hi2c : b ≠ 0x40) (hspi : b ≠ 0x50) (hsess : b ≠ 0x60) :
    UnitClass.ofByte b = none := by
  simpa [UnitClass.ofByte, UnitClass.all, UnitClass.code] using ⟨hser.symm, hi2c.symm, hspi.symm, hsess.symm⟩

/-- Settles O58: the operand byte decides the first clause, the class of the agent named the second. -/
theorem missingAgentRefused : Obligations.MissingAgentRefused := by
  refine ⟨fun b k s hser hi2c hspi hsess => ?_, fun i c n s ht h => exec_of_missing ht h⟩
  simp [exec, execFramerReset, unitClass_ofByte_none hser hi2c hspi hsess]

/-! ## The frame of exec -/

/-- The slots of a class that the instruction does not name, over the step of the agent it names. -/
theorem getElem?_set_of_target {α : Type} {l : List α} {a : α} {i : Instr} {c : UnitClass} {n j : Nat}
    (ht : target i = some (c, n)) (hj : target i ≠ some (c, j)) : (l.set n a)[j]? = l[j]? :=
  List.getElem?_set_ne fun hnj : n = j => hj (hnj ▸ ht)

/-- Settles O10, by the unit whose step the instruction runs: only the slot it names is written, beside the port. -/
theorem execTouchesOnlyItsAgent : Obligations.ExecTouchesOnlyItsAgent := by
  intro i s t h
  cases exec_next h with
  | pure r _ ht => subst ht; simp
  | ser k f u hi _ _ ht =>
    subst ht
    exact ⟨rfl, rfl, by simp, rfl, rfl, rfl, fun _ hj => getElem?_set_of_target hi hj, fun _ _ => rfl, fun _ _ => rfl,
      fun _ _ => rfl, fun hnone => by cases hi.symm.trans hnone⟩
  | i2c k f u u' r hi _ _ _ ht =>
    subst ht
    exact ⟨rfl, rfl, rfl, by simp, rfl, rfl, fun _ _ => rfl, fun _ hj => getElem?_set_of_target hi hj, fun _ _ => rfl,
      fun _ _ => rfl, fun hnone => by cases hi.symm.trans hnone⟩
  | spi k f u hi _ _ ht =>
    subst ht
    exact ⟨rfl, rfl, rfl, rfl, by simp, rfl, fun _ _ => rfl, fun _ _ => rfl, fun _ hj => getElem?_set_of_target hi hj,
      fun _ _ => rfl, fun hnone => by cases hi.symm.trans hnone⟩
  | sess k f u hi _ _ ht =>
    subst ht
    exact ⟨rfl, rfl, rfl, rfl, rfl, by simp, fun _ _ => rfl, fun _ _ => rfl, fun _ _ => rfl,
      fun _ hj => getElem?_set_of_target hi hj, fun hnone => by cases hi.symm.trans hnone⟩

end Sys2Proof.Machine
end

section
/-! Proofs about the parameters (10_state.md R36; 70_reset_and_hazards.md R362): what each kind of step keeps of the agent in
one slot. -/

namespace Sys2Proof.Machine

/-! ## What an agent keeps: its read-only parameters (R9, R36) -/

/-- P1 and P2. -/
abbrev SerFramer.SameParameters (u v : SerFramer) : Prop := v.dir = u.dir ∧ v.cap = u.cap

/-- P3 and P4. -/
abbrev I2cFramer.SameParameters (u v : I2cFramer) : Prop := v.adjust = u.adjust ∧ v.bit7Mode = u.bit7Mode

/-- P6. -/
abbrev SpiFramer.SameParameters (u v : SpiFramer) : Prop := v.adjust = u.adjust

/-- A session unit has no parameter. -/
abbrev SessionUnit.SameParameters (_ _ : SessionUnit) : Prop := True

theorem serByte_sameParameters (b : Byte) (u : SerFramer) : u.SameParameters (serByte b u).1 := by
  rcases serByte_cases b u with e | e | ⟨e, -⟩ | e <;> rw [e] <;> exact ⟨rfl, rfl⟩

theorem i2cTxn_sameParameters {rw : Rw} {data : Bytes} {u u' : I2cFramer} {r : Result}
    (h : i2cTxn rw data u = some (u', r)) : u.SameParameters u' := by
  rcases i2cTxn_cases h with rfl | rfl | ⟨-, rfl⟩ | ⟨-, l, rfl⟩ | ⟨-, rfl⟩ <;> exact ⟨rfl, rfl⟩

theorem resetI2c_sameParameters {u u' : I2cFramer} {r : Result} (h : resetI2c u = some (u', r)) :
    u.SameParameters u' := by
  cases h
  exact ⟨rfl, rfl⟩

theorem spiTxn_sameParameters (mosi miso : Bytes) (u : SpiFramer) : u.SameParameters (spiTxn mosi miso u).1 := by
  rcases spiTxn_cases mosi miso u with e | e | ⟨l, e⟩ <;> rw [e]

/-! ## What one slot of a class keeps -/

/-- If slot k of a class holds an agent before, it holds one after that is `R`-related to it. -/
def KeepsSlot {α : Type} (R : α → α → Prop) (k : Nat) (old new : List (Option α)) : Prop :=
  ∀ u, old[k]? = some (some u) → ∃ v, new[k]? = some (some v) ∧ R u v

section KeepsSlot

variable {α : Type} {R : α → α → Prop} {l : List (Option α)} {j k : Nat}

theorem KeepsSlot.refl (hR : ∀ u, R u u) : KeepsSlot R k l l :=
  fun u hu => ⟨u, hu, hR u⟩

/-- One agent's step: its own slot holds an agent related to it, every other slot is as it was. -/
theorem KeepsSlot.set {u v : α} (hR : ∀ u, R u u) (hu : l[j]?.join = some u) (huv : R u v) :
    KeepsSlot R k l (l.set j (some v)) := by
  intro w hw
  by_cases hjk : j = k
  · subst hjk
    obtain rfl : w = u := by simpa [hw] using hu
    exact ⟨v, by simp [(List.getElem?_eq_some_iff.mp hw).1], huv⟩
  · exact ⟨w, by rw [List.getElem?_set_ne hjk, hw], hR w⟩

/-- A creation at another index. -/
theorem KeepsSlot.putSlot {u : α} (hR : ∀ u, R u u) (h : k ≠ j) : KeepsSlot R k l (putSlot l j u) := by
  intro w hw
  have hjoin : (Machine.putSlot l j u)[k]?.join = some w := by rw [putSlot_other l u h, hw]; rfl
  exact ⟨w, Option.join_eq_some_iff.mp hjoin, hR w⟩

/-- The discard of another agent. -/
theorem KeepsSlot.set_none (hR : ∀ u, R u u) (h : k ≠ j) : KeepsSlot R k l (l.set j none) :=
  fun w hw => ⟨w, by rw [List.getElem?_set_ne h.symm, hw], hR w⟩

end KeepsSlot

/-! ## What each kind of step keeps -/

/-- Over a step that took the host's action `a`: P5 stays unless `a` creates a codec, and each agent keeps its slot and its
parameters unless `a` creates at its index or discards it. -/
structure KeepsParameters (a : Option HostAction) (s t : State) : Prop where
  p5 : (∀ p5, a ≠ some (.create (.codec p5))) → t.itdTypeCode = s.itdTypeCode
  ser : ∀ k, (∀ dir cap, a ≠ some (.create (.ser k dir cap))) → a ≠ some (.discard .ser k) →
    KeepsSlot SerFramer.SameParameters k s.ser t.ser
  i2c : ∀ k, (∀ adjust m, a ≠ some (.create (.i2c k adjust m))) → a ≠ some (.discard .i2c k) →
    KeepsSlot I2cFramer.SameParameters k s.i2c t.i2c
  spi : ∀ k, (∀ adjust, a ≠ some (.create (.spi k adjust))) → a ≠ some (.discard .spi k) →
    KeepsSlot SpiFramer.SameParameters k s.spi t.spi
  sess : ∀ k, a ≠ some (.create (.sess k)) → a ≠ some (.discard .sess k) →
    KeepsSlot SessionUnit.SameParameters k s.sess t.sess

section KeepsParameters

variable {a : Option HostAction} {s t : State}

theorem KeepsParameters.refl : KeepsParameters a s s where
  p5 _ := rfl
  ser _ _ _ := .refl fun _ => ⟨rfl, rfl⟩
  i2c _ _ _ := .refl fun _ => ⟨rfl, rfl⟩
  spi _ _ _ := .refl fun _ => rfl
  sess _ _ _ := .refl fun _ => trivial

/-- Taking an action off the queue touches no agent. -/
theorem KeepsParameters.of_withPending {rest : List HostAction} (h : KeepsParameters a (s.withPending rest) t) :
    KeepsParameters a s t :=
  ⟨h.p5, h.ser, h.i2c, h.spi, h.sess⟩

/-- A creation writes the slot it names, or P5. -/
theorem keepsParameters_of_create {c : Creation} (h : create s c = .next t) :
    KeepsParameters (some (.create c)) s t := by
  obtain ⟨-, hkind⟩ := create_next h
  rcases hkind with ⟨j, dir, cap, rfl, rfl⟩ | ⟨j, adjust, m, rfl, rfl⟩ | ⟨j, adjust, rfl, rfl⟩ | ⟨j, rfl, rfl⟩ |
    ⟨p5, rfl, rfl⟩
  · exact { KeepsParameters.refl with
      ser := fun k hc _ => .putSlot (fun _ => ⟨rfl, rfl⟩) fun hkj => hc dir cap (by rw [hkj]) }
  · exact { KeepsParameters.refl with
      i2c := fun k hc _ => .putSlot (fun _ => ⟨rfl, rfl⟩) fun hkj => hc adjust m (by rw [hkj]) }
  · exact { KeepsParameters.refl with
      spi := fun k hc _ => .putSlot (fun _ => rfl) fun hkj => hc adjust (by rw [hkj]) }
  · exact { KeepsParameters.refl with
      sess := fun k hc _ => .putSlot (fun _ => trivial) fun hkj => hc (by rw [hkj]) }
  · exact { KeepsParameters.refl with p5 := fun hc => absurd rfl (hc p5) }

/-- A discard empties the slot it names. -/
theorem keepsParameters_of_discard {unit : UnitClass} {j : Nat} (h : discardAgent s unit j = .next t) :
    KeepsParameters (some (.discard unit j)) s t := by
  obtain ⟨-, hclass⟩ := discardAgent_next h
  rcases hclass with ⟨rfl, rfl⟩ | ⟨rfl, rfl⟩ | ⟨rfl, rfl⟩ | ⟨rfl, rfl⟩
  · exact { KeepsParameters.refl with
      ser := fun k _ hd => .set_none (fun _ => ⟨rfl, rfl⟩) fun hkj => hd (by rw [hkj]) }
  · exact { KeepsParameters.refl with
      i2c := fun k _ hd => .set_none (fun _ => ⟨rfl, rfl⟩) fun hkj => hd (by rw [hkj]) }
  · exact { KeepsParameters.refl with
      spi := fun k _ hd => .set_none (fun _ => rfl) fun hkj => hd (by rw [hkj]) }
  · exact { KeepsParameters.refl with
      sess := fun k _ hd => .set_none (fun _ => trivial) fun hkj => hd (by rw [hkj]) }

/-- An instruction runs one of the operations of the agent it names, and none of these writes a parameter. -/
theorem keepsParameters_of_exec {i : Instr} (h : exec i s = .next t) : KeepsParameters a s t := by
  cases exec_next h with
  | pure r _ ht =>
    subst ht
    exact { KeepsParameters.refl with }
  | ser j f u _ hu hf ht =>
    have hparams : u.SameParameters (f u).1 := by
      rcases hf with rfl | ⟨b, rfl⟩
      · exact ⟨rfl, rfl⟩
      · exact serByte_sameParameters b u
    subst ht
    exact { KeepsParameters.refl with ser := fun _ _ _ => .set (fun _ => ⟨rfl, rfl⟩) hu hparams }
  | i2c j f u u' r _ hu hf hr ht =>
    have hparams : u.SameParameters u' := by
      rcases hf with rfl | ⟨rw, data, rfl⟩
      · exact resetI2c_sameParameters hr
      · exact i2cTxn_sameParameters hr
    subst ht
    exact { KeepsParameters.refl with i2c := fun _ _ _ => .set (fun _ => ⟨rfl, rfl⟩) hu hparams }
  | spi j f u _ hu hf ht =>
    have hparams : u.SameParameters (f u).1 := by
      rcases hf with rfl | ⟨mosi, miso, rfl⟩
      · rfl
      · exact spiTxn_sameParameters mosi miso u
    subst ht
    exact { KeepsParameters.refl with spi := fun _ _ _ => .set (fun _ => rfl) hu hparams }
  | sess j f u _ hu _ ht =>
    subst ht
    exact { KeepsParameters.refl with sess := fun _ _ _ => .set (fun _ => trivial) hu trivial }

theorem step_keepsParameters (h : step s = .next t) : KeepsParameters s.pending.head? s t := by
  rcases step_next h with ⟨-, rfl⟩ | ⟨c, rest, hp, hc⟩ | ⟨unit, k, rest, hp, hd⟩ | ⟨src, bs, rest, i, -, -, he⟩
  · exact .refl
  · rw [hp]
    exact (keepsParameters_of_create hc).of_withPending
  · rw [hp]
    exact (keepsParameters_of_discard hd).of_withPending
  · exact (keepsParameters_of_exec he).of_withPending

end KeepsParameters

/-- Settles O9: the invariant of one step, read class by class. -/
theorem stepKeepsParameters : Obligations.StepKeepsParameters := by
  intro s t h
  obtain ⟨hp5, hser, hi2c, hspi, hsess⟩ := step_keepsParameters h
  refine ⟨hp5, fun k u hu hc hd => hser k hc hd u hu, fun k u hu hc hd => hi2c k hc hd u hu,
    fun k u hu hc hd => hspi k hc hd u hu, fun k u hu hc hd => ?_⟩
  obtain ⟨v, hv, -⟩ := hsess k hc hd u hu
  exact ⟨v, hv⟩

end Sys2Proof.Machine
end

section
/-! Proofs about CI_DECODE (42_client_info.md R152, R158; 10_state.md R34): no operation of its loop repeats an override code. -/

namespace Sys2Proof.Machine

open Sys2Proof.Spec

/-- R34, for a list of overrides. -/
def CodesDistinct (l : List (CommandCode × U16)) : Prop := (l.map Prod.fst).Nodup

theorem CodesDistinct.upsert {l : List (CommandCode × U16)} (h : CodesDistinct l) (c : CommandCode) (t : U16) :
    CodesDistinct (upsert l c t) := by
  unfold CodesDistinct
  rw [upsert_codes]
  split
  · exact h
  · next hc => simpa using List.Nodup.concat hc h

theorem ciTriplets_codesDistinct {v : Bytes} {a a' : CiFields} (h : ciTriplets v a = .ok a') (ha : CodesDistinct a.ovr) :
    CodesDistinct a'.ovr := by
  fun_induction ciTriplets v a with
  | case1 a lo hi rest ih => exact ih h ha
  | case2 a c lo hi rest _ code hcode ih => exact ih h (ha.upsert code _)
  | case3 => cases h
  | case4 => cases h; exact ha

/-- Only COMMAND_TIMEOUTS writes the overrides (R154 to R157). -/
theorem ciRecord_codesDistinct {t : Byte} {v : Bytes} {a a' : CiFields} (h : ciRecord t v a = .ok a')
    (ha : CodesDistinct a.ovr) : CodesDistinct a'.ovr := by
  unfold ciRecord at h
  split_ifs at h
  · unfold ciVersion at h
    split at h <;> cases h <;> exact ha
  · unfold ciBufferInfo at h
    split at h <;> cases h
    exact ha
  · unfold ciTimeouts at h
    split at h
    · cases h
    · exact ciTriplets_codesDistinct h ha
  · unfold ciDelay at h
    split at h <;> cases h
    exact ha

theorem ciLoop_codesDistinct {p5 : Byte} {fuel : Nat} {bs : Bytes} {a a' : CiFields} (h : ciLoop p5 fuel bs a = .ok a')
    (ha : CodesDistinct a.ovr) : CodesDistinct a'.ovr := by
  fun_induction ciLoop p5 fuel bs a with
  | case1 => cases h; exact ha
  | case5 a fuel t l body _ _ a₁ hrecord ih => exact ih h (ciRecord_codesDistinct hrecord ha)
  | _ => cases h

theorem ciFinish_overrides {a : CiFields} {ci : ClientInfo} (h : ciFinish a = .ok ci) : ci.overrides = a.ovr := by
  unfold ciFinish at h
  repeat' split at h
  all_goals cases h
  rfl

theorem ciDecode_codesDistinct {p5 : Byte} {d : Bytes} {ci : ClientInfo} (h : ciDecode p5 d = .ok ci) :
    CodesDistinct ci.overrides := by
  unfold ciDecode at h
  split at h
  · next a hloop =>
    rw [ciFinish_overrides h]
    exact ciLoop_codesDistinct hloop List.nodup_nil
  · cases h

theorem answers_ciDecode (d : Bytes) (s : State) : answers (.ciDecode d) s (ciResult (ciDecode s.itdTypeCode d)) := rfl

/-- Settles O24, by what CI_DECODE answers with: the record of a stream that decodes keeps R34. -/
theorem ciDecodeCompletes : Obligations.CiDecodeCompletes := by
  refine fun d s => ⟨fun _ => rfl, ?_⟩
  have hanswer := answers_ciDecode d s
  cases hd : ciDecode s.itdTypeCode d with
  | ok ci => exact .inl ⟨ci, ciDecode_codesDistinct hd, by rwa [hd] at hanswer⟩
  | error e => exact .inr ⟨e, by rwa [hd] at hanswer⟩

end Sys2Proof.Machine
end

section
/-! Proofs about the I2C framer's transactions (44_i2c_framer.md R241, R243, R250; 10_state.md R27, R35; 30_encoding.md R87):
that each has an outcome, and what a status read reports and moves. -/

namespace Sys2Proof.Machine

open Sys2Proof.Spec

theorem stepI2c_completes {s : State} {k : Byte} {u : I2cFramer} (hu : s.i2cAt k = some u)
    (hlen : u.phase = .response → u.rspLen ≠ none) (rw : Rw) (data : Bytes) :
    ∃ u' r, stepI2c s k (i2cTxn rw data) = .next ((s.setI2c k u').emit (.result r)) := by
  obtain ⟨u', r, htxn⟩ := i2cTxn_completes hlen rw data
  exact ⟨u', r, stepI2c_of_some hu htxn⟩

/-! Each status-bit row is a read whose data begins with the row's byte (log 3). -/

theorem exec_i2cCmdReady (k : Byte) (hi : BitVec 7) (more : Bytes) (s : State) :
    exec (.i2cCmdReady k hi more) s = stepI2c s k (i2cTxn .read (statusCmdReady hi :: more)) := rfl

theorem exec_i2cRspReady (k : Byte) (hi : BitVec 6) (lo : BitVec 1) (more : Bytes) (s : State) :
    exec (.i2cRspReady k hi lo more) s = stepI2c s k (i2cTxn .read (statusRspReady hi lo :: more)) := rfl

theorem exec_i2cBit7 (k : Byte) (lo : BitVec 7) (more : Bytes) (s : State) :
    exec (.i2cBit7 k lo more) s = stepI2c s k (i2cTxn .read (statusBit7 lo :: more)) := rfl

/-- Settles O48: every row runs a transaction of the framer, which has an outcome by R27. -/
theorem i2cAlwaysCompletes : Obligations.I2cAlwaysCompletes := by
  intro k s u hu hlen
  refine ⟨fun rw _ data => ⟨fun _ => rfl, ?_⟩, fun hi more => ?_, fun hi lo more => ?_, fun lo more => ?_⟩
  · exact stepI2c_completes hu hlen rw data
  · exact exec_i2cCmdReady k hi more s ▸ stepI2c_completes hu hlen .read _
  · exact exec_i2cRspReady k hi lo more s ▸ stepI2c_completes hu hlen .read _
  · exact exec_i2cBit7 k lo more s ▸ stepI2c_completes hu hlen .read _

/-! ## The bits of the status byte (R35, R87), as numbers -/

theorem toNat_append_eq {m n : Nat} (x : BitVec m) (y : BitVec n) : (x ++ y).toNat = x.toNat * 2 ^ n + y.toNat := by
  rw [BitVec.toNat_append, ← Nat.shiftLeft_add_eq_or_of_lt y.isLt, Nat.shiftLeft_eq]

theorem getLsbD_iff {n : Nat} (x : BitVec n) (i : Nat) : x.getLsbD i = true ↔ x.toNat / 2 ^ i % 2 = 1 := by
  simp [BitVec.getLsbD, Nat.testBit_eq_decide_div_mod_eq]

theorem poll_cmdReady_iff (p : PollStatus) : p.cmdReady = true ↔ p.raw.toNat % 2 = 1 :=
  (getLsbD_iff p.raw 0).trans (by simp)

theorem poll_rspReady_iff (p : PollStatus) : p.rspReady = true ↔ p.raw.toNat / 2 % 2 = 1 :=
  getLsbD_iff p.raw 1

theorem poll_bit7_iff (p : PollStatus) : p.bit7 = true ↔ p.raw.toNat / 128 % 2 = 1 :=
  getLsbD_iff p.raw 7

theorem setBit_toNat : (1 : BitVec 1).toNat = 1 := rfl

theorem statusCmdReady_toNat (hi : BitVec 7) : (statusCmdReady hi).toNat = 2 * hi.toNat + 1 := by
  rw [statusCmdReady, toNat_append_eq, setBit_toNat]
  omega

theorem statusRspReady_toNat (hi : BitVec 6) (lo : BitVec 1) :
    (statusRspReady hi lo).toNat = 4 * hi.toNat + 2 + lo.toNat := by
  rw [statusRspReady, toNat_append_eq, toNat_append_eq, setBit_toNat]
  omega

theorem statusBit7_toNat (lo : BitVec 7) : (statusBit7 lo).toNat = 128 + lo.toNat := by
  rw [statusBit7, toNat_append_eq, setBit_toNat]
  omega

/-! ## The status reads -/

/-- R243: in COMMAND and RESPONSE_STATUS the first byte is reported, and its bit 1 moves RESPONSE_STATUS. -/
theorem i2cTxn_statusRead {u : I2cFramer} (hp : u.phase = .command ∨ u.phase = .responseStatus) (st : Byte)
    (more : Bytes) :
    i2cTxn .read (st :: more) u =
      some (if u.phase = .responseStatus ∧ st.toNat / 2 % 2 = 1 then { u with phase := .responseLength } else u,
        .poll ⟨st⟩) := by
  rcases hp with hp | hp <;> simp [i2cTxn, i2cRead, i2cStatusRead, poll_rspReady_iff, hp]

/-- Settles O44, row by row: the row's byte as a number gives its named bit and its bit 1. -/
theorem i2cStatusRows : Obligations.I2cStatusRows := by
  intro k s u more hu hp
  have hread (st : Byte) := stepI2c_of_some hu (i2cTxn_statusRead hp st more)
  refine ⟨fun hi => ?cmdReady, fun hi lo => ?rspReady, fun lo => ?bit7⟩
  case cmdReady =>
    have hraw := statusCmdReady_toNat hi
    have hbit : (statusCmdReady hi).toNat / 2 % 2 = hi.toNat % 2 := by omega
    refine ⟨⟨statusCmdReady hi⟩, (poll_cmdReady_iff _).mpr (by simp only [hraw]; omega), hraw, ?_⟩
    simpa only [exec_i2cCmdReady, hbit] using hread (statusCmdReady hi)
  case rspReady =>
    have hraw := statusRspReady_toNat hi lo
    have hbit : (statusRspReady hi lo).toNat / 2 % 2 = 1 := by omega
    refine ⟨⟨statusRspReady hi lo⟩, (poll_rspReady_iff _).mpr hbit, hraw, ?_⟩
    simpa only [exec_i2cRspReady, hbit, and_true] using hread (statusRspReady hi lo)
  case bit7 =>
    have hraw := statusBit7_toNat lo
    have hbit : (statusBit7 lo).toNat / 2 % 2 = lo.toNat / 2 % 2 := by omega
    refine ⟨⟨statusBit7 lo⟩, (poll_bit7_iff _).mpr (by simp only [hraw]; omega), hraw, ?_⟩
    simpa only [exec_i2cBit7, hbit] using hread (statusBit7 lo)

end Sys2Proof.Machine
end

section
/-! Proofs about independent steps (20_memory.md R56, R57, R58; 30_encoding.md R71): an instruction reads P5 and the agent it
names and writes that agent and the port, so it does the same in every state that agrees on what it reads. From this and
`execTouchesOnlyItsAgent`: a pure operation repeats, and steps of different agents commute. -/

namespace Sys2Proof.Machine

/-! ## What an instruction reads and what it writes -/

/-- The states `s` and `t` agree on what an instruction with target `o` reads: P5 and the agent named. -/
structure AgreeOn (o : Option (UnitClass × Nat)) (s t : State) : Prop where
  p5 : t.itdTypeCode = s.itdTypeCode
  ser : ∀ k, o = some (.ser, k) → t.ser[k]? = s.ser[k]?
  i2c : ∀ k, o = some (.i2c, k) → t.i2c[k]? = s.i2c[k]?
  spi : ∀ k, o = some (.spi, k) → t.spi[k]? = s.spi[k]?
  sess : ∀ k, o = some (.sess, k) → t.sess[k]? = s.sess[k]?

/-- The two targets name no common agent. -/
def Apart (o o' : Option (UnitClass × Nat)) : Prop := ∀ x, o = some x → o' ≠ some x

/-- The state `s` with the agent that `o` names as `a` holds it. -/
def State.takeAgent (s : State) (o : Option (UnitClass × Nat)) (a : State) : State :=
  match o with
  | none => s
  | some (.ser, k) => { s with ser := s.ser.set k a.ser[k]?.join }
  | some (.i2c, k) => { s with i2c := s.i2c.set k a.i2c[k]?.join }
  | some (.spi, k) => { s with spi := s.spi.set k a.spi[k]?.join }
  | some (.sess, k) => { s with sess := s.sess.set k a.sess[k]?.join }

theorem apart_iff {o o' : Option (UnitClass × Nat)} : Apart o o' ↔ o ≠ o' ∨ o = none := by
  cases o with
  | none => simp [Apart]
  | some x => simp [Apart, eq_comm]

theorem Apart.symm {o o' : Option (UnitClass × Nat)} (h : Apart o o') : Apart o' o :=
  fun x hx' hx => h x hx hx'

section Agreement

variable {o o' : Option (UnitClass × Nat)} {s t a b : State} {k : Byte}

theorem AgreeOn.refl : AgreeOn o s s :=
  ⟨rfl, fun _ _ => rfl, fun _ _ => rfl, fun _ _ => rfl, fun _ _ => rfl⟩

theorem AgreeOn.symm (h : AgreeOn o s t) : AgreeOn o t s :=
  ⟨h.p5.symm, fun k hk => (h.ser k hk).symm, fun k hk => (h.i2c k hk).symm, fun k hk => (h.spi k hk).symm,
    fun k hk => (h.sess k hk).symm⟩

/-- A pure operation reads P5 alone. -/
theorem agreeOn_none (h : t.itdTypeCode = s.itdTypeCode) : AgreeOn none s t :=
  ⟨h, nofun, nofun, nofun, nofun⟩

/-- The frame of exec, for what another instruction reads (R58). -/
theorem agreeOn_of_exec {i : Instr} (h : exec i s = .next t) (ho : Apart o (target i)) : AgreeOn o s t := by
  obtain ⟨hp5, -, -, -, -, -, hser, hi2c, hspi, hsess, -⟩ := execTouchesOnlyItsAgent i s t h
  exact ⟨hp5, fun k hk => hser k (ho _ hk), fun k hk => hi2c k (ho _ hk), fun k hk => hspi k (ho _ hk),
    fun k hk => hsess k (ho _ hk)⟩

@[simp] theorem State.takeAgent_none : s.takeAgent none a = s := rfl

theorem State.takeAgent_emit (r : Reply) : (s.emit r).takeAgent o a = (s.takeAgent o a).emit r := by
  rcases o with - | ⟨c, k⟩
  · rfl
  · cases c <;> rfl

theorem State.takeAgent_ser {u : SerFramer} (h : a.serAt k = some u) :
    s.takeAgent (some (.ser, k.toNat)) a = s.setSer k u := by
  rw [State.setSer, ← h]; rfl

theorem State.takeAgent_i2c {u : I2cFramer} (h : a.i2cAt k = some u) :
    s.takeAgent (some (.i2c, k.toNat)) a = s.setI2c k u := by
  rw [State.setI2c, ← h]; rfl

theorem State.takeAgent_spi {u : SpiFramer} (h : a.spiAt k = some u) :
    s.takeAgent (some (.spi, k.toNat)) a = s.setSpi k u := by
  rw [State.setSpi, ← h]; rfl

theorem State.takeAgent_sess {u : SessionUnit} (h : a.sessAt k = some u) :
    s.takeAgent (some (.sess, k.toNat)) a = s.setSess k u := by
  rw [State.setSess, ← h]; rfl

/-- Writes of different agents commute: they are in lists of two classes, or in two slots of one. -/
theorem State.takeAgent_comm (h : Apart o o') :
    (s.takeAgent o a).takeAgent o' b = (s.takeAgent o' b).takeAgent o a := by
  rcases o with - | ⟨c, k⟩
  · rfl
  rcases o' with - | ⟨c', k'⟩
  · rfl
  by_cases hc : c = c'
  · subst hc
    have hk : k ≠ k' := fun hkk => h (c, k) rfl (by rw [hkk])
    cases c <;> simp only [State.takeAgent, List.set_comm _ _ hk]
  · cases c <;> cases c' <;> simp only [not_true_eq_false, reduceCtorEq, not_false_eq_true] at hc <;> rfl

end Agreement

/-! ## An instruction does the same wherever it reads the same -/

section SameReads

variable {s t a : State} {k : Byte}

theorem answer_of_agreeOn {r : Byte → Result} (h : answer s (r s.itdTypeCode) = .next a) (ht : AgreeOn none s t) :
    answer t (r t.itdTypeCode) = .next ((t.takeAgent none a).emit a.reply) := by
  obtain rfl := answer_next.mp h
  rw [ht.p5]
  rfl

theorem stepSer_of_agreeOn {f : SerFramer → SerFramer × Result} (h : stepSer s k f = .next a)
    (ht : AgreeOn (some (.ser, k.toNat)) s t) :
    stepSer t k f = .next ((t.takeAgent (some (.ser, k.toNat)) a).emit a.reply) := by
  obtain ⟨u, hu, ha⟩ := stepSer_next h
  have htu : t.serAt k = some u := (congrArg Option.join (ht.ser _ rfl)).trans hu
  have hau : a.serAt k = some (f u).1 := by rw [ha, State.emit_serAt, s.setSer_serAt_same k _ u hu]
  rw [stepSer_of_some htu, State.takeAgent_ser hau, ha, State.emit_reply]

theorem stepI2c_of_agreeOn {f : I2cFramer → Option (I2cFramer × Result)} (h : stepI2c s k f = .next a)
    (ht : AgreeOn (some (.i2c, k.toNat)) s t) :
    stepI2c t k f = .next ((t.takeAgent (some (.i2c, k.toNat)) a).emit a.reply) := by
  obtain ⟨u, u', r, hu, hf, ha⟩ := stepI2c_next h
  have htu : t.i2cAt k = some u := (congrArg Option.join (ht.i2c _ rfl)).trans hu
  have hau : a.i2cAt k = some u' := by rw [ha, State.emit_i2cAt, s.setI2c_i2cAt_same k _ u hu]
  rw [stepI2c_of_some htu hf, State.takeAgent_i2c hau, ha, State.emit_reply]

theorem stepSpi_of_agreeOn {f : SpiFramer → SpiFramer × Result} (h : stepSpi s k f = .next a)
    (ht : AgreeOn (some (.spi, k.toNat)) s t) :
    stepSpi t k f = .next ((t.takeAgent (some (.spi, k.toNat)) a).emit a.reply) := by
  obtain ⟨u, hu, ha⟩ := stepSpi_next h
  have htu : t.spiAt k = some u := (congrArg Option.join (ht.spi _ rfl)).trans hu
  have hau : a.spiAt k = some (f u).1 := by rw [ha, State.emit_spiAt, s.setSpi_spiAt_same k _ u hu]
  rw [stepSpi_of_some htu, State.takeAgent_spi hau, ha, State.emit_reply]

theorem stepSess_of_agreeOn {f : Byte → SessionUnit → SessionUnit × Reply}
    (h : stepSess s k (f s.itdTypeCode) = .next a) (ht : AgreeOn (some (.sess, k.toNat)) s t) :
    stepSess t k (f t.itdTypeCode) = .next ((t.takeAgent (some (.sess, k.toNat)) a).emit a.reply) := by
  obtain ⟨u, hu, ha⟩ := stepSess_next h
  have htu : t.sessAt k = some u := (congrArg Option.join (ht.sess _ rfl)).trans hu
  have hau : a.sessAt k = some (f s.itdTypeCode u).1 := by
    rw [ha, State.emit_sessAt, s.setSess_sessAt_same k _ u hu]
  rw [ht.p5, stepSess_of_some htu, State.takeAgent_sess hau, ha, State.emit_reply]

/-- FRAMER_RESET runs the step of the class its operand byte names (R71, R314). -/
theorem framerReset_of_agreeOn {b : Byte} (h : exec (.framerReset b k) s = .next a)
    (ht : AgreeOn (target (.framerReset b k)) s t) :
    exec (.framerReset b k) t = .next ((t.takeAgent (target (.framerReset b k)) a).emit a.reply) := by
  simp only [exec, execFramerReset, target] at h ht ⊢
  cases hc : UnitClass.ofByte b with
  | none => simp [hc] at h
  | some c =>
    simp only [hc, Option.map_some] at h ht ⊢
    cases c with
    | ser => exact stepSer_of_agreeOn h ht
    | i2c => exact stepI2c_of_agreeOn h ht
    | spi => exact stepSpi_of_agreeOn h ht
    | sess => exact stepSess_of_agreeOn (f := fun _ => resetSess) h ht

/-- CI_ENCODE refuses by the record alone (R160), and answers by the record and P5. -/
theorem ciEncode_of_agreeOn {ci : ClientInfo} (h : exec (.ciEncode ci) s = .next a) (ht : AgreeOn none s t) :
    exec (.ciEncode ci) t = .next ((t.takeAgent none a).emit a.reply) := by
  simp only [exec, execCiEncode] at h ⊢
  split at h
  · next hwf =>
    rw [if_pos hwf]
    exact answer_of_agreeOn (r := fun p5 => .value (.bytes (ciEncode p5 ci))) h ht
  · cases h

/-- If an instruction answers `a` in `s`, then where P5 and the agent it names are as in `s` it gives the same reply, leaves
that agent as in `a`, and changes nothing else. -/
theorem exec_of_agreeOn {i : Instr} (h : exec i s = .next a) (ht : AgreeOn (target i) s t) :
    exec i t = .next ((t.takeAgent (target i) a).emit a.reply) := by
  cases i with
  | serByte k _ | serStart k | serEnd k => exact stepSer_of_agreeOn h ht
  | i2cTxn k _ _ _ | i2cCmdReady k _ _ | i2cRspReady k _ _ _ | i2cBit7 k _ _ => exact stepI2c_of_agreeOn h ht
  | spiTxn k _ _ | spiWrite k _ _ | spiRead k _ _ | spiTagLen k _ _ _ | spiTagRsp k _ _ _ =>
    exact stepSpi_of_agreeOn h ht
  | sessionResult k r => exact stepSess_of_agreeOn (f := fun p5 => sessionStep p5 r) h ht
  | framerReset b k => exact framerReset_of_agreeOn h ht
  | ciEncode ci => exact ciEncode_of_agreeOn h ht
  | ciDecode d => exact answer_of_agreeOn (r := fun p5 => ciResult (ciDecode p5 d)) h ht
  | tlvProtocolVersion len body =>
    exact answer_of_agreeOn (r := fun p5 => ciResult (ciDecode p5 (versionType :: len :: body))) h ht
  | tlvBufferInfo len body =>
    exact answer_of_agreeOn (r := fun p5 => ciResult (ciDecode p5 (bufferInfoType :: len :: body))) h ht
  | tlvCommandTimeouts len body =>
    exact answer_of_agreeOn (r := fun p5 => ciResult (ciDecode p5 (timeoutsType :: len :: body))) h ht
  | tlvInterTransactionDelay len body =>
    exact answer_of_agreeOn (r := fun p5 => ciResult (ciDecode p5 (p5 :: len :: body))) h ht
  | _ => exact answer_of_agreeOn (r := fun _ => _) h ht

/-- A step writes the agent it names and the port. -/
theorem takeAgent_of_exec {i : Instr} (h : exec i s = .next a) : (s.takeAgent (target i) a).emit a.reply = a :=
  Host.Outcome.next.inj ((exec_of_agreeOn h .refl).symm.trans h)

end SameReads

/-! ## The statements -/

/-- Settles O1: the delivery branch of `step`. -/
theorem stepRunsDecodedInstruction : Obligations.StepRunsDecodedInstruction :=
  fun _ _ _ _ _ hp hd => step_of_deliver hp hd

/-- Settles O12: a pure operation reads P5 alone, and names no agent to write. -/
theorem pureOperationRepeats : Obligations.PureOperationRepeats := by
  intro i s t s' hpure h hp5
  have hreads : AgreeOn (target i) s s' := hpure ▸ agreeOn_none hp5
  simpa only [hpure, State.takeAgent_none] using exec_of_agreeOn h hreads

/-- Settles O11: neither instruction writes what the other reads, so each does from the other's states what it did before;
then the two orders write the same two agents. -/
theorem stepsOfDifferentAgentsCommute : Obligations.StepsOfDifferentAgentsCommute := by
  intro i j s a ab hdiff hi hj
  have hapart : Apart (target i) (target j) := apart_iff.mpr hdiff
  have hjs := exec_of_agreeOn hj (agreeOn_of_exec hi hapart.symm).symm
  have hib := exec_of_agreeOn hi (agreeOn_of_exec hjs hapart)
  refine ⟨_, _, hjs, hib, ?_, rfl, rfl⟩
  calc (((s.takeAgent (target j) ab).emit ab.reply).takeAgent (target i) a).emit a.reply
      = ((s.takeAgent (target i) a).takeAgent (target j) ab).emit a.reply := by
        rw [State.takeAgent_emit, State.emit_emit, State.takeAgent_comm hapart]
    _ = (((s.takeAgent (target i) a).emit a.reply).takeAgent (target j) ab).emit a.reply := by
        rw [State.takeAgent_emit, State.emit_emit]
    _ = (a.takeAgent (target j) ab).emit a.reply := by rw [takeAgent_of_exec hi]
    _ = ((a.takeAgent (target j) ab).emit ab.reply).emit a.reply := (State.emit_emit _ _ _).symm
    _ = ab.emit a.reply := by rw [takeAgent_of_exec hj]

end Sys2Proof.Machine
end

section
/-! Proofs about the decoder and the encoder (30_encoding.md R70 to R93): each source's reading of the bytes written for an
instruction, then what the instruction read from any wire input does; the statements on encodings, on reserved codes, on the
header rows and on wire inputs. -/

namespace Sys2Proof.Machine

open Sys2Proof.Spec

/-! ## A byte and its fields (R72, R73, R87) -/

theorem commandByte0_fields (b0 : Byte) : commandByte0 (syncField b0) (commandReserved b0) (seqField b0) = b0 := by
  revert b0
  decide

theorem statusByte0_fields (b0 : Byte) :
    statusByte0 (b0.getLsbD 7) (resendField b0) (b0.getLsbD 5) (seqField b0) = b0 := by
  revert b0
  decide

theorem statusCmdReady_fields {st : Byte} (h : st.getLsbD 0 = true) : statusCmdReady (st.extractLsb' 1 7) = st := by
  revert st
  decide

theorem statusRspReady_fields {st : Byte} (h : st.getLsbD 1 = true) :
    statusRspReady (st.extractLsb' 2 6) (st.extractLsb' 0 1) = st := by
  revert st
  decide

theorem statusBit7_fields {st : Byte} (h : st.getLsbD 7 = true) : statusBit7 (st.extractLsb' 0 7) = st := by
  revert st
  decide

@[simp] theorem syncField_commandByte0 (sync : Bool) (rsv : BitVec 2) (seq : BitVec 5) :
    syncField (commandByte0 sync rsv seq) = sync := by
  revert sync rsv seq
  decide

@[simp] theorem commandReserved_commandByte0 (sync : Bool) (rsv : BitVec 2) (seq : BitVec 5) :
    commandReserved (commandByte0 sync rsv seq) = rsv := by
  revert sync rsv seq
  decide

@[simp] theorem seqField_commandByte0 (sync : Bool) (rsv : BitVec 2) (seq : BitVec 5) :
    seqField (commandByte0 sync rsv seq) = seq := by
  revert sync rsv seq
  decide

theorem statusByte0_getLsbD_seven (r7 resend r5 : Bool) (seq : BitVec 5) :
    (statusByte0 r7 resend r5 seq).getLsbD 7 = r7 := by
  revert r7 resend r5 seq
  decide

@[simp] theorem resendField_statusByte0 (r7 resend r5 : Bool) (seq : BitVec 5) :
    resendField (statusByte0 r7 resend r5 seq) = resend := by
  revert r7 resend r5 seq
  decide

theorem statusByte0_getLsbD_five (r7 resend r5 : Bool) (seq : BitVec 5) :
    (statusByte0 r7 resend r5 seq).getLsbD 5 = r5 := by
  revert r7 resend r5 seq
  decide

@[simp] theorem seqField_statusByte0 (r7 resend r5 : Bool) (seq : BitVec 5) :
    seqField (statusByte0 r7 resend r5 seq) = seq := by
  revert r7 resend r5 seq
  decide

theorem getI2cStatus_statusCmdReady (k : Byte) (hi : BitVec 7) (more : Bytes) :
    getI2cStatus k .cmdReady (statusCmdReady hi :: more) = .i2cCmdReady k hi more := by
  have hbit : (statusCmdReady hi).getLsbD 0 = true := by revert hi; decide
  have hfield : (statusCmdReady hi).extractLsb' 1 7 = hi := by revert hi; decide
  simp [getI2cStatus, hbit, hfield]

theorem getI2cStatus_statusRspReady (k : Byte) (hi : BitVec 6) (lo : BitVec 1) (more : Bytes) :
    getI2cStatus k .rspReady (statusRspReady hi lo :: more) = .i2cRspReady k hi lo more := by
  have hbit : (statusRspReady hi lo).getLsbD 1 = true := by revert hi lo; decide
  have hhi : (statusRspReady hi lo).extractLsb' 2 6 = hi := by revert hi lo; decide
  have hlo : (statusRspReady hi lo).extractLsb' 0 1 = lo := by revert hi lo; decide
  simp [getI2cStatus, hbit, hhi, hlo]

theorem getI2cStatus_statusBit7 (k : Byte) (lo : BitVec 7) (more : Bytes) :
    getI2cStatus k .bit7 (statusBit7 lo :: more) = .i2cBit7 k lo more := by
  have hbit : (statusBit7 lo).getLsbD 7 = true := by revert lo; decide
  have hfield : (statusBit7 lo).extractLsb' 0 7 = lo := by revert lo; decide
  simp [getI2cStatus, hbit, hfield]

/-! ## The request port (R70, R71, R93) -/

theorem decode_of_getInstr {p5 : Byte} {src : Source} {bs : Bytes} {i : Instr} (h : getInstr p5 src bs = .ok (i, [])) :
    decode p5 src bs = .ok i := by
  simp [decode, h]

@[simp] theorem getRequest_code (o : Op) (k : Byte) (r : Bytes) : getRequest (o.code :: k :: r) = getOperands o k r := by
  simp [getRequest]

/-- A request is read back whatever bytes follow: each operand carries its own end. -/
theorem getRequest_encode {i : Instr} (h : sourceOf i = .request) (p5 : Byte) (r : Bytes) :
    getRequest (encode p5 i ++ r) = .ok (i, r) := by
  cases i with
  | csum | csumVerify | frameSeal | frameOpen | cmdDecode | cmdEncode | stsDecode | stsEncode | ciDecode | ciEncode
  | ciSetDefaultTimeouts | itdFromNs | itdDecode | itdEncode | serEscape | serUnescape | serFrameEncode
  | serFrameDecode => simp [encode, head0, getOperands, indexZero]
  | serByte | i2cTxn | spiTxn | sessionResult | framerReset => simp [encode, getOperands]
  | _ => cases h

theorem decode_encode_of_request {i : Instr} (h : sourceOf i = .request) (p5 : Byte) :
    decode p5 .request (encode p5 i) = .ok i :=
  decode_of_getInstr (by simpa [getInstr] using getRequest_encode h p5 [])

/-- R70: the 23 codes, as numbers. -/
theorem op_ofByte_none {op : Byte}
    (h : op.toNat ∉ [0x01, 0x02, 0x03, 0x04, 0x10, 0x11, 0x12, 0x13, 0x20, 0x21, 0x22, 0x28, 0x29, 0x2A,
      0x30, 0x31, 0x32, 0x33, 0x34, 0x40, 0x50, 0x60, 0x70]) : Op.ofByte op = none := by
  refine Option.eq_none_iff_forall_ne_some.mpr fun o ho => h ?_
  rw [Op.ofByte_some ho]
  cases o <;> decide

theorem decode_of_reserved {op : Byte} (h : Op.ofByte op = none) (p5 : Byte) (operands : Bytes) :
    decode p5 .request (op :: operands) = .error (.reservedOperation op) := by
  simp [decode, getInstr, getRequest, h]

/-! ## Command and Status packets (R72, R73, R75, R76) -/

theorem answers_cmdDecode (b : Bytes) (s : State) : answers (.cmdDecode b) s (cmdResult (cmdDecode b) .none) := rfl

theorem answers_stsDecode (b : Bytes) (s : State) : answers (.stsDecode b) s (stsResult (stsDecode b) .none) := rfl

theorem cmdDecode_code (b0 : Byte) (c : CommandCode) (data : Bytes) :
    cmdDecode (b0 :: c.code :: data) = .ok ⟨seqField b0, syncField b0, c, data⟩ := by
  simp [cmdDecode]

theorem stsDecode_code (b0 : Byte) (c : StatusCode) (data : Bytes) :
    stsDecode (b0 :: c.code :: data) = .ok ⟨seqField b0, resendField b0, c, data⟩ := by
  simp [stsDecode]

/-- The Command header row of a command. -/
def commandRow (c : CommandCode) : Bool → BitVec 2 → BitVec 5 → Bytes → Instr :=
  match c with
  | .getClientInfo => .cmdGetClientInfo
  | .startTransfer => .cmdStartTransfer
  | .writeChunk => .cmdWriteChunk
  | .getImageState => .cmdGetImageState
  | .endTransfer => .cmdEndTransfer

/-- The Status header row of a status. -/
def statusRow (c : StatusCode) : Bool → Bool → Bool → BitVec 5 → Bytes → Instr :=
  match c with
  | .success => .stsSuccess
  | .notSupported => .stsNotSupported
  | .notAuthorized => .stsNotAuthorized
  | .packetTransportFailure => .stsPacketTransportFailure
  | .abortFileTransfer => .stsAbortFileTransfer

section Packets

variable {sync r7 resend r5 : Bool} {rsv : BitVec 2} {seq : BitVec 5} {data : Bytes} {s : State}

theorem getCommandPacket_code (b0 : Byte) (c : CommandCode) (data : Bytes) :
    getCommandPacket (b0 :: c.code :: data) = commandRow c (syncField b0) (commandReserved b0) (seqField b0) data := by
  cases c <;> rfl

theorem getCommandPacket_noCode {b1 : Byte} (h : CommandCode.ofByte b1 = none) (b0 : Byte) (data : Bytes) :
    getCommandPacket (b0 :: b1 :: data) = .cmdDecode (b0 :: b1 :: data) := by
  simp [getCommandPacket, h]

theorem getStatusPacket_code (b0 : Byte) (c : StatusCode) (data : Bytes) :
    getStatusPacket (b0 :: c.code :: data) =
      statusRow c (b0.getLsbD 7) (resendField b0) (b0.getLsbD 5) (seqField b0) data := by
  cases c <;> rfl

theorem getStatusPacket_noCode {b1 : Byte} (h : StatusCode.ofByte b1 = none) (b0 : Byte) (data : Bytes) :
    getStatusPacket (b0 :: b1 :: data) = .stsDecode (b0 :: b1 :: data) := by
  simp [getStatusPacket, h]

theorem decode_commandRow (p5 : Byte) (c : CommandCode) :
    decode p5 .commandPacket (commandByte0 sync rsv seq :: c.code :: data) = .ok (commandRow c sync rsv seq data) :=
  decode_of_getInstr (by simp [getInstr, getCommandPacket_code])

theorem decode_statusRow (p5 : Byte) (c : StatusCode) :
    decode p5 .statusPacket (statusByte0 r7 resend r5 seq :: c.code :: data) =
      .ok (statusRow c r7 resend r5 seq data) :=
  decode_of_getInstr (by
    simp only [getInstr, getStatusPacket_code, statusByte0_getLsbD_seven, statusByte0_getLsbD_five,
      resendField_statusByte0, seqField_statusByte0])

theorem exec_commandRow (c : CommandCode) :
    exec (commandRow c sync rsv seq data) s =
      exec (.cmdDecode (commandByte0 sync rsv seq :: c.code :: data)) s := by
  cases c <;> rfl

theorem exec_statusRow (c : StatusCode) :
    exec (statusRow c r7 resend r5 seq data) s =
      exec (.stsDecode (statusByte0 r7 resend r5 seq :: c.code :: data)) s := by
  cases c <;> rfl

theorem answers_commandRow (c : CommandCode) :
    answers (commandRow c sync rsv seq data) s (.cmd ⟨seq, sync, c, data⟩) := by
  rw [answers, exec_commandRow, answers_cmdDecode, cmdDecode_code, seqField_commandByte0, syncField_commandByte0,
    cmdResult]

theorem answers_statusRow (c : StatusCode) :
    answers (statusRow c r7 resend r5 seq data) s (.sts ⟨seq, resend, c, data⟩) := by
  rw [answers, exec_statusRow, answers_stsDecode, stsDecode_code, seqField_statusByte0, resendField_statusByte0,
    stsResult]

theorem exec_getCommandPacket (bs : Bytes) (s : State) : exec (getCommandPacket bs) s = exec (.cmdDecode bs) s := by
  match bs with
  | [] | [_] => rfl
  | b0 :: b1 :: data =>
    cases h : CommandCode.ofByte b1 with
    | none => rw [getCommandPacket_noCode h]
    | some c => rw [CommandCode.ofByte_some h, getCommandPacket_code, exec_commandRow, commandByte0_fields]

theorem exec_getStatusPacket (bs : Bytes) (s : State) : exec (getStatusPacket bs) s = exec (.stsDecode bs) s := by
  match bs with
  | [] | [_] => rfl
  | b0 :: b1 :: data =>
    cases h : StatusCode.ofByte b1 with
    | none => rw [getStatusPacket_noCode h]
    | some c => rw [StatusCode.ofByte_some h, getStatusPacket_code, exec_statusRow, statusByte0_fields]

end Packets

/-! ## Parameter streams (R79, R80, R152) -/

section ParameterRows

variable (len : Byte) (body : Bytes) (s : State)

theorem exec_tlvProtocolVersion :
    exec (.tlvProtocolVersion len body) s = exec (.ciDecode (versionType :: len :: body)) s := rfl

theorem exec_tlvBufferInfo :
    exec (.tlvBufferInfo len body) s = exec (.ciDecode (bufferInfoType :: len :: body)) s := rfl

theorem exec_tlvCommandTimeouts :
    exec (.tlvCommandTimeouts len body) s = exec (.ciDecode (timeoutsType :: len :: body)) s := rfl

theorem exec_tlvInterTransactionDelay :
    exec (.tlvInterTransactionDelay len body) s = exec (.ciDecode (s.itdTypeCode :: len :: body)) s := rfl

end ParameterRows

/-- R151: a legal P5 is the type byte of no other row. -/
theorem getParameterStream_delay {p5 : Byte} (h : itdTypeLegal p5 = true) (len : Byte) (body : Bytes) :
    getParameterStream p5 (p5 :: len :: body) = .tlvInterTransactionDelay len body := by
  obtain ⟨hver, hbuf, htim⟩ : p5 ≠ versionType ∧ p5 ≠ bufferInfoType ∧ p5 ≠ timeoutsType := itdTypeLegal_iff.mp h
  simp [getParameterStream, hver, hbuf, htim]

theorem exec_getParameterStream (bs : Bytes) (s : State) :
    exec (getParameterStream s.itdTypeCode bs) s = exec (.ciDecode bs) s := by
  match bs with
  | [] | [_] => rfl
  | t :: len :: body =>
    simp only [getParameterStream]
    split_ifs with hver hbuf htim hitd
    · rw [hver, exec_tlvProtocolVersion]
    · rw [hbuf, exec_tlvBufferInfo]
    · rw [htim, exec_tlvCommandTimeouts]
    · rw [hitd, exec_tlvInterTransactionDelay]
    · rfl

/-! ## Serial bytes and frame bodies (R83, R84) -/

theorem runsAs_serialLine (p5 k b : Byte) : runsAs p5 (.serialLine k) [b] (.serByte k b) := by
  by_cases hstart : b = startCode
  · exact ⟨.serStart k, by simp [decode, getInstr, getSerialLine, hstart], fun _ _ => hstart ▸ rfl⟩
  · by_cases hend : b = endCode
    · exact ⟨.serEnd k, by simp [decode, getInstr, getSerialLine, hend, endCode, startCode], fun _ _ => hend ▸ rfl⟩
    · exact ⟨.serByte k b, by simp [decode, getInstr, getSerialLine, hstart, hend], fun _ _ => rfl⟩

theorem exec_getEscapedBody (bs : Bytes) (s : State) : exec (getEscapedBody bs) s = exec (.serUnescape bs) s := by
  match bs with
  | [] => rfl
  | b :: rest =>
    simp only [getEscapedBody]
    split_ifs with hesc
    · exact hesc ▸ rfl
    · rfl

theorem exec_getEscapePair (bs : Bytes) (s : State) : exec (getEscapePair bs) s = exec (.serUnescape bs) s := by
  match bs with
  | [] | [_] => rfl
  | b :: y :: rest =>
    simp only [getEscapePair]
    split_ifs with hstart hend hesc
    · obtain ⟨rfl, rfl⟩ := hstart; rfl
    · obtain ⟨rfl, rfl⟩ := hend; rfl
    · obtain ⟨rfl, rfl⟩ := hesc; rfl
    · rfl

/-! ## SPI transactions (R88, R89; log 2) -/

section Spi

variable (k : Byte) (rest miso body : Bytes)

/-- The last operand of an input. -/
@[simp] theorem getBytes_putBytes_last (b : Bytes) : getBytes (putBytes b) = .ok (b, []) := by
  simpa using getBytes_putBytes b []

theorem getSpiOutbound_cons (b : Byte) :
    getSpiOutbound k (b :: (putBytes rest ++ putBytes miso)) =
      .ok (if b = spiWriteCode then .spiWrite k rest miso else if b = spiReadCode then .spiRead k rest miso
        else .spiTxn k (b :: rest) miso, []) := by
  simp only [getSpiOutbound, getBytes_putBytes, getBytes_putBytes_last, andThen_ok]
  split_ifs <;> rfl

theorem getSpiReply_cons (t0 t1 t2 dummy : Byte) :
    getSpiReply k ([t0, t1, t2, dummy] ++ putBytes rest ++ putBytes body) =
      .ok (if [t0, t1, t2] = tagLen then .spiTagLen k rest dummy body
        else if [t0, t1, t2] = tagRsp then .spiTagRsp k rest dummy body
        else .spiTxn k (spiReadCode :: rest) (dummy :: t0 :: t1 :: t2 :: body), []) := by
  simp only [getSpiReply, List.cons_append, List.nil_append, getByte_cons, getBytes_putBytes, getBytes_putBytes_last,
    andThen_ok]
  split_ifs <;> rfl

theorem runsAs_spiOutbound (p5 b : Byte) :
    runsAs p5 (.spiOutbound k) (b :: (putBytes rest ++ putBytes miso)) (.spiTxn k (b :: rest) miso) := by
  refine ⟨_, decode_of_getInstr (getSpiOutbound_cons k rest miso b), fun s _ => ?_⟩
  split_ifs with hwrite hread
  · exact hwrite ▸ rfl
  · exact hread ▸ rfl
  · rfl

theorem runsAs_spiReply (p5 t0 t1 t2 dummy : Byte) :
    runsAs p5 (.spiReply k) ([t0, t1, t2, dummy] ++ putBytes rest ++ putBytes body)
      (.spiTxn k (spiReadCode :: rest) ([dummy, t0, t1, t2] ++ body)) := by
  refine ⟨_, decode_of_getInstr (getSpiReply_cons k rest body t0 t1 t2 dummy), fun s _ => ?_⟩
  split_ifs with hlen hrsp
  · obtain ⟨rfl, rfl, rfl⟩ : t0 = 0x4C ∧ t1 = 0x45 ∧ t2 = 0x4E := by simpa [tagLen] using hlen
    rfl
  · obtain ⟨rfl, rfl, rfl⟩ : t0 = 0x52 ∧ t1 = 0x53 ∧ t2 = 0x50 := by simpa [tagRsp] using hrsp
    rfl
  · rfl

end Spi

/-! ## I2C reads (R87, R241, R249) -/

/-- R249: no rule looks at the address. -/
theorem exec_i2cTxn_addr (k : Byte) (rw : Rw) (addr addr' : BitVec 7) (data : Bytes) (s : State) :
    exec (.i2cTxn k rw addr data) s = exec (.i2cTxn k rw addr' data) s := rfl

theorem exec_getI2cStatus (k : Byte) (bit : StatusBit) (addr : BitVec 7) (bs : Bytes) (s : State) :
    exec (getI2cStatus k bit bs) s = exec (.i2cTxn k .read addr bs) s := by
  match bs with
  | [] => exact exec_i2cTxn_addr ..
  | st :: more =>
    cases bit <;> simp only [getI2cStatus] <;> split_ifs with hbit
    · rw [exec_i2cCmdReady, statusCmdReady_fields hbit]; rfl
    · exact exec_i2cTxn_addr ..
    · rw [exec_i2cRspReady, statusRspReady_fields hbit]; rfl
    · exact exec_i2cTxn_addr ..
    · rw [exec_i2cBit7, statusBit7_fields hbit]; rfl
    · exact exec_i2cTxn_addr ..

/-! ## The statements -/

/-- Settles O4, by the format of the instruction's row: the requests have one lemma, over the operand readers; each wire
format has the lemma of its source. -/
theorem decodeEncodeAgree : Obligations.DecodeEncodeAgree := by
  intro p5 i hp5
  cases i with
  | cmdGetClientInfo => exact decode_commandRow p5 .getClientInfo
  | cmdStartTransfer => exact decode_commandRow p5 .startTransfer
  | cmdWriteChunk => exact decode_commandRow p5 .writeChunk
  | cmdGetImageState => exact decode_commandRow p5 .getImageState
  | cmdEndTransfer => exact decode_commandRow p5 .endTransfer
  | stsSuccess => exact decode_statusRow p5 .success
  | stsNotSupported => exact decode_statusRow p5 .notSupported
  | stsNotAuthorized => exact decode_statusRow p5 .notAuthorized
  | stsPacketTransportFailure => exact decode_statusRow p5 .packetTransportFailure
  | stsAbortFileTransfer => exact decode_statusRow p5 .abortFileTransfer
  | tlvProtocolVersion | tlvBufferInfo | tlvCommandTimeouts => rfl
  | tlvInterTransactionDelay len body =>
    exact congrArg Except.ok (getParameterStream_delay hp5 len body)
  | serStart | serEnd | serEsc | serEsc56 | serEsc9E | serEscCC => rfl
  | spiWrite k rest miso => exact decode_of_getInstr (getSpiOutbound_cons k rest miso spiWriteCode)
  | spiRead k rest miso => exact decode_of_getInstr (getSpiOutbound_cons k rest miso spiReadCode)
  | spiTagLen k rest dummy body => exact decode_of_getInstr (getSpiReply_cons k rest body 0x4C 0x45 0x4E dummy)
  | spiTagRsp k rest dummy body => exact decode_of_getInstr (getSpiReply_cons k rest body 0x52 0x53 0x50 dummy)
  | i2cCmdReady k hi more => exact congrArg Except.ok (getI2cStatus_statusCmdReady k hi more)
  | i2cRspReady k hi lo more => exact congrArg Except.ok (getI2cStatus_statusRspReady k hi lo more)
  | i2cBit7 k lo more => exact congrArg Except.ok (getI2cStatus_statusBit7 k lo more)
  | _ => exact decode_encode_of_request rfl p5

/-- Settles O55: the lemma of each source, then the rows whose agent is there. -/
theorem wireInputsRunTheirUnit : Obligations.WireInputsRunTheirUnit := by
  refine ⟨fun p5 bs => ⟨?command, ?status, ?parameters, ?escapedBody, ?escapePair⟩, runsAs_serialLine, fun p5 k => ?empty,
    fun p5 k b rest miso => runsAs_spiOutbound k rest miso p5 b,
    fun p5 k t0 t1 t2 dummy rest body => runsAs_spiReply k rest body p5 t0 t1 t2 dummy,
    fun p5 k bit addr bs => ⟨_, rfl, fun s _ => exec_getI2cStatus k bit addr bs s⟩, fun k s u hu => ?serial,
    fun k dummy rest miso s u hu => ?spi⟩
  case command => exact ⟨_, rfl, fun s _ => exec_getCommandPacket bs s⟩
  case status => exact ⟨_, rfl, fun s _ => exec_getStatusPacket bs s⟩
  case parameters => exact ⟨_, rfl, fun s hs => hs ▸ exec_getParameterStream bs s⟩
  case escapedBody => exact ⟨_, rfl, fun s _ => exec_getEscapedBody bs s⟩
  case escapePair => exact ⟨_, rfl, fun s _ => exec_getEscapePair bs s⟩
  case empty => exact ⟨_, rfl, fun _ _ => rfl⟩
  case serial => exact ⟨⟨_, stepSer_of_some hu, stepSer_of_some hu⟩, ⟨_, stepSer_of_some hu, stepSer_of_some hu⟩⟩
  case spi =>
    exact ⟨⟨_, stepSpi_of_some hu, stepSpi_of_some hu⟩, ⟨_, stepSpi_of_some hu, stepSpi_of_some hu⟩,
      ⟨_, stepSpi_of_some hu, stepSpi_of_some hu⟩, ⟨_, stepSpi_of_some hu, stepSpi_of_some hu⟩⟩

/-- Settles O3: the code of every operation is in R70's list. -/
theorem reservedOperationRefused : Obligations.ReservedOperationRefused :=
  fun s _ operands _ hop hp => step_of_deliver_error hp (decode_of_reserved (op_ofByte_none hop) s.itdTypeCode operands)

/-- Settles O5: each word but the last is the encoding of the instruction it stands for. -/
theorem sampleWordsDecode : Obligations.SampleWordsDecode := by
  have hread (i : Instr) : decode 0x04 (sourceOf i) (encode 0x04 i) = .ok i := decodeEncodeAgree 0x04 i rfl
  exact ⟨hread (.csum [0x03, 0x01]), hread (.serByte 1 0x9E), hread (.framerReset 0x40 0),
    hread (.cmdEndTransfer true 0 31 [0xAA]), hread (.stsSuccess false true false 3 []),
    hread (.tlvInterTransactionDelay 4 [0x40, 0x42, 0x0F, 0x00]), hread (.serStart 0), hread (.serEsc9E []),
    hread (.spiRead 0 [] [0xFF, 0xFF]), hread (.spiTagLen 0 [] 0 []), hread (.i2cRspReady 0 0x20 1 []),
    decode_of_reserved rfl 0x04 [0x00]⟩

/-- Settles O22: the row of each command. -/
theorem commandHeaderRows : Obligations.CommandHeaderRows :=
  fun _ _ _ _ _ => ⟨answers_commandRow .getClientInfo, answers_commandRow .startTransfer, answers_commandRow .writeChunk,
    answers_commandRow .getImageState, answers_commandRow .endTransfer⟩

/-- Settles O23: the row of each status. -/
theorem statusHeaderRows : Obligations.StatusHeaderRows :=
  fun _ _ _ _ _ _ => ⟨answers_statusRow .success, answers_statusRow .notSupported, answers_statusRow .notAuthorized,
    answers_statusRow .packetTransportFailure, answers_statusRow .abortFileTransfer⟩

end Sys2Proof.Machine
end

section
/-! Proofs about the serial frame (30_encoding.md R83, R84; 43_serial_framer.md R201 to R204, R211): escaping byte by byte,
unescaping as its inverse, the checksum as a number (40_checksum.md R100, R105), and the frame around them. -/

namespace Sys2Proof.Machine

open Sys2Proof.Spec

/-! ## Escaping (R84, R201) -/

/-- What one byte becomes in a frame body, by the table of R84. -/
def escapeOf (x : Byte) : Bytes :=
  if x = 0x56 then [0xCC, 0xA9] else if x = 0x9E then [0xCC, 0x61] else if x = 0xCC then [0xCC, 0x33] else [x]

theorem escapeOf_special {x : Byte} (h : isSpecial x = true) : escapeOf x = [escapeCode, ~~~ x] := by
  revert x
  decide

theorem escapeOf_plain {x : Byte} (h : isSpecial x = false) : escapeOf x = [x] := by
  revert x
  decide

theorem serEscape_cons (x : Byte) (d : Bytes) : serEscape (x :: d) = escapeOf x ++ serEscape d := by
  cases h : isSpecial x with
  | true => simp [serEscape, h, escapeOf_special h]
  | false => simp [serEscape, h, escapeOf_plain h]

theorem serEscape_eq_flatMap (d : Bytes) : serEscape d = d.flatMap escapeOf := by
  induction d with
  | nil => rfl
  | cons x d ih => rw [serEscape_cons, ih, List.flatMap_cons]

theorem notMem_escapeOf (x : Byte) : 0x56 ∉ escapeOf x ∧ 0x9E ∉ escapeOf x := by
  revert x
  decide

theorem escapeOf_length (x : Byte) :
    (escapeOf x).length = 1 + if (x == 0x56 || x == 0x9E || x == 0xCC) = true then 1 else 0 := by
  revert x
  decide

/-- R201: no start code and no end code stands in a frame body. -/
theorem notMem_serEscape (d : Bytes) : 0x56 ∉ serEscape d ∧ 0x9E ∉ serEscape d := by
  rw [serEscape_eq_flatMap, List.mem_flatMap, List.mem_flatMap]
  exact ⟨fun ⟨x, _, hx⟩ => (notMem_escapeOf x).1 hx, fun ⟨x, _, hx⟩ => (notMem_escapeOf x).2 hx⟩

theorem serEscape_length (d : Bytes) :
    (serEscape d).length = d.length + d.countP fun x => x == 0x56 || x == 0x9E || x == 0xCC := by
  induction d with
  | nil => rfl
  | cons x d ih =>
    rw [serEscape_cons, List.length_append, escapeOf_length, ih, List.length_cons, List.countP_cons]
    omega

/-! ## Unescaping (R202), the inverse of escaping -/

theorem consOk_eq_ok {x : Byte} {r : Except ErrorKind Bytes} {d : Bytes} :
    consOk x r = .ok d ↔ ∃ b, r = .ok b ∧ d = x :: b := by
  cases r <;> simp [consOk, eq_comm]

theorem consOk_eq_error {x : Byte} {r : Except ErrorKind Bytes} {e : ErrorKind} :
    consOk x r = .error e ↔ r = .error e := by
  cases r <;> simp [consOk]

theorem serUnescape_pair {y : Byte} (h : isEscaped y = true) (rest : Bytes) :
    serUnescape (escapeCode :: y :: rest) = consOk (~~~ y) (serUnescape rest) := by
  rw [serUnescape, if_pos rfl, if_pos h]

theorem serUnescape_unknownPair {y : Byte} (h : isEscaped y = false) (rest : Bytes) :
    serUnescape (escapeCode :: y :: rest) = .error (.framingError .badEscape) := by
  simp [serUnescape, h]

theorem serUnescape_plain {x : Byte} (h : isSpecial x = false) (rest : Bytes) :
    serUnescape (x :: rest) = consOk x (serUnescape rest) := by
  obtain ⟨⟨hstart, hend⟩, hesc⟩ : (x ≠ startCode ∧ x ≠ endCode) ∧ x ≠ escapeCode := by simpa [isSpecial] using h
  rw [serUnescape.eq_def]
  simp [hstart, hend, hesc]

theorem isEscaped_not (x : Byte) : isEscaped (~~~ x) = isSpecial x := by
  revert x
  decide

theorem serUnescape_escapeOf (x : Byte) (rest : Bytes) :
    serUnescape (escapeOf x ++ rest) = consOk x (serUnescape rest) := by
  cases h : isSpecial x with
  | true =>
    rw [escapeOf_special h]
    have hpair := serUnescape_pair ((isEscaped_not x).trans h) rest
    rwa [BitVec.not_not] at hpair
  | false => simpa [escapeOf_plain h] using serUnescape_plain h rest

/-- R211 (a). -/
@[simp] theorem serUnescape_serEscape (d : Bytes) : serUnescape (serEscape d) = .ok d := by
  induction d with
  | nil => rfl
  | cons x d ih => rw [serEscape_cons, serUnescape_escapeOf, ih, consOk]

theorem escapeOf_not {y : Byte} (h : isEscaped y = true) : escapeOf (~~~ y) = [escapeCode, y] := by
  revert y
  decide

/-- A body that unescapes is the escaping of what it gives. -/
theorem eq_serEscape_of_serUnescape {e d : Bytes} (h : serUnescape e = .ok d) : e = serEscape d := by
  fun_induction serUnescape e generalizing d with
  | case1 => cases h; rfl
  | case2 | case4 | case5 => cases h
  | case3 y rest hy ih =>
    obtain ⟨b, hb, rfl⟩ := consOk_eq_ok.mp h
    rw [serEscape_cons, escapeOf_not hy, ← ih hb]
    rfl
  | case6 x rest hesc hcode ih =>
    obtain ⟨b, hb, rfl⟩ := consOk_eq_ok.mp h
    have hplain : isSpecial x = false := by
      obtain ⟨hstart, hend⟩ := not_or.mp hcode
      simp [isSpecial, hstart, hend, hesc]
    rw [serEscape_cons, escapeOf_plain hplain, ← ih hb]
    rfl

/-- SER_UNESCAPE has one error (R202). -/
theorem serUnescape_error {bs : Bytes} {e : ErrorKind} (h : serUnescape bs = .error e) :
    e = .framingError .badEscape := by
  fun_induction serUnescape bs with
  | case1 => cases h
  | case2 | case4 | case5 => cases h; rfl
  | case3 _ _ _ ih | case6 _ _ _ _ ih => exact ih (consOk_eq_error.mp h)

theorem serUnescape_of_noEscaping {e : Bytes} (h : ∀ d, e ≠ serEscape d) :
    serUnescape e = .error (.framingError .badEscape) := by
  cases hu : serUnescape e with
  | ok d => exact absurd (eq_serEscape_of_serUnescape hu) (h d)
  | error x => rw [serUnescape_error hu]

theorem serUnescape_pair_serEscape {y : Byte} (h : isEscaped y = true) (d : Bytes) :
    serUnescape (escapeCode :: y :: serEscape d) = .ok (~~~ y :: d) := by
  rw [serUnescape_pair h, serUnescape_serEscape, consOk]

/-- Whatever stands after the escape code, the rest of the body must be an escaping. -/
theorem serUnescape_pair_of_noEscaping {rest : Bytes} (h : ∀ d, rest ≠ serEscape d) (y : Byte) :
    serUnescape (escapeCode :: y :: rest) = .error (.framingError .badEscape) := by
  cases hy : isEscaped y with
  | true => rw [serUnescape_pair hy, serUnescape_of_noEscaping h, consOk]
  | false => exact serUnescape_unknownPair hy rest

/-! ## The checksum as a number (R100, R105) -/

theorem totalNat_nil : totalNat [] = 0 := rfl

theorem totalNat_singleton (lo : Byte) : totalNat [lo] = lo.toNat := by
  simp [totalNat, wordNat]

theorem wordNat_cons_cons (lo hi : Byte) (d : Bytes) (k : Nat) : wordNat (lo :: hi :: d) (k + 1) = wordNat d k := by
  simp [wordNat, Nat.mul_add]

theorem totalNat_cons_cons (lo hi : Byte) (d : Bytes) :
    totalNat (lo :: hi :: d) = lo.toNat + 256 * hi.toNat + totalNat d := by
  have hwords : ((lo :: hi :: d).length + 1) / 2 = (d.length + 1) / 2 + 1 := by simp only [List.length_cons]; omega
  have hfirst : wordNat (lo :: hi :: d) 0 = lo.toNat + 256 * hi.toNat := rfl
  simp only [totalNat, hwords, Finset.sum_range_succ', wordNat_cons_cons, hfirst]
  omega

theorem foldl_leWords_toNat (d : Bytes) (acc : U16) :
    ((leWords d).foldl (fun s w => s + w) acc).toNat = (acc.toNat + totalNat d) % 0x10000 := by
  fun_induction leWords d generalizing acc with
  | case1 => simpa [totalNat_nil] using (Nat.mod_eq_of_lt acc.isLt).symm
  | case2 lo => simp [totalNat_singleton, le16_toNat]
  | case3 lo hi d ih =>
    rw [List.foldl_cons, ih, totalNat_cons_cons, BitVec.toNat_add, le16_toNat]
    omega

theorem csum_toNat (d : Bytes) : (csum d).toNat = checksumNat d := by
  simp only [csum, wordSum, BitVec.toNat_not, foldl_leWords_toNat, checksumNat]
  simp

/-! ## The frame (R203, R204) -/

theorem serFrameDecode_frame (body : Bytes) (dir : Dir) :
    serFrameDecode (0x56 :: body ++ [0x9E]) dir = serBodyDecode body dir := by
  simp [serFrameDecode, startCode, endCode]

theorem serFrameDecode_badStart {b : Byte} (h : b ≠ 0x56) (rest : Bytes) (dir : Dir) :
    serFrameDecode (b :: rest) dir = framingErr .badStart := if_pos h

theorem serFrameDecode_badEnd {b : Byte} (h : b ≠ 0x9E) (body : Bytes) (dir : Dir) :
    serFrameDecode (0x56 :: body ++ [b]) dir = framingErr .badEnd := by
  have hlast : b ≠ endCode := h
  simp [serFrameDecode, startCode, hlast, framingErr]

theorem serBodyDecode_of_noEscaping {body : Bytes} (h : ∀ d, body ≠ serEscape d) (dir : Dir) :
    serBodyDecode body dir = framingErr .badEscape := by
  simp [serBodyDecode, serUnescape_of_noEscaping h, framingErr]

theorem serBodyDecode_of_error {u : Bytes} {e : ErrorKind} (h : frameOpen u = .error e) (dir : Dir) :
    serBodyDecode (serEscape u) dir = .err e .none := by
  simp [serBodyDecode, h]

theorem serBodyDecode_frameSeal (p : Bytes) (dir : Dir) :
    serBodyDecode (serEscape (frameSeal p)) dir = decodeByDir dir p := by
  simp [serBodyDecode]

theorem frameOpen_checksumInvalid {p : Bytes} {lo hi : Byte} (h : lo.toNat + 256 * hi.toNat ≠ checksumNat p) :
    frameOpen (p ++ [lo, hi]) = .error .checksumInvalid := by
  have hne : csum p ≠ le16 lo hi := fun heq => h (by rw [← le16_toNat, ← heq, csum_toNat])
  rw [frameOpen_append, if_neg hne]

/-! ## What the serial instructions answer with -/

section Answers

variable {rest : Bytes} {x : Except ErrorKind Bytes}

theorem answers_serEscape (d : Bytes) (s : State) : answers (.serEscape d) s (.value (.bytes (serEscape d))) := rfl

theorem answers_serUnescape (h : serUnescape rest = x) (s : State) :
    answers (.serUnescape rest) s (bytesResult x) := h ▸ rfl

theorem answers_serEsc (h : serUnescape (escapeCode :: rest) = x) (s : State) :
    answers (.serEsc rest) s (bytesResult x) := h ▸ rfl

theorem answers_serEsc56 (h : serUnescape (escapeCode :: 0xA9 :: rest) = x) (s : State) :
    answers (.serEsc56 rest) s (bytesResult x) := h ▸ rfl

theorem answers_serEsc9E (h : serUnescape (escapeCode :: 0x61 :: rest) = x) (s : State) :
    answers (.serEsc9E rest) s (bytesResult x) := h ▸ rfl

theorem answers_serEscCC (h : serUnescape (escapeCode :: 0x33 :: rest) = x) (s : State) :
    answers (.serEscCC rest) s (bytesResult x) := h ▸ rfl

theorem answers_serFrameEncode (p : Bytes) (s : State) :
    answers (.serFrameEncode p) s (.value (.bytes (0x56 :: serEscape (frameSeal p) ++ [0x9E]))) := rfl

theorem answers_serFrameDecode {frame : Bytes} {dir : Dir} {r : Result} (h : serFrameDecode frame dir = r) (s : State) :
    answers (.serFrameDecode frame dir) s r := h ▸ rfl

end Answers

/-! ## The statements -/

/-- Settles O35, by the table of R84 for each byte. -/
theorem serEscapeResult : Obligations.SerEscapeResult :=
  fun d s => ⟨fun _ => rfl, serEscape d, answers_serEscape d s, serEscape_eq_flatMap d, (notMem_serEscape d).1,
    (notMem_serEscape d).2, serEscape_length d⟩

/-- Settles O36: unescaping inverts escaping, and its only error is on what is no escaping. -/
theorem serUnescapeResult : Obligations.SerUnescapeResult :=
  ⟨fun _ _ => rfl, fun d s => answers_serUnescape (serUnescape_serEscape d) s,
    fun _ s h => answers_serUnescape (serUnescape_of_noEscaping h) s⟩

/-- Settles O37: each row unescapes a body that begins with its pair. -/
theorem escapeRows : Obligations.EscapeRows := by
  refine ⟨fun d s => ?escaping, fun rest s h => ?noEscaping, fun y rest s h56 h9E hCC => ?unknownPair, fun s => ?dangling⟩
  case escaping =>
    have hpair {y : Byte} (hy : isEscaped y = true) := serUnescape_pair_serEscape hy d
    exact ⟨answers_serEsc56 (hpair rfl) s, answers_serEsc9E (hpair rfl) s, answers_serEscCC (hpair rfl) s,
      answers_serEsc (hpair rfl) s, answers_serEsc (hpair rfl) s, answers_serEsc (hpair rfl) s⟩
  case noEscaping =>
    have hpair := serUnescape_pair_of_noEscaping h
    exact ⟨answers_serEsc56 (hpair _) s, answers_serEsc9E (hpair _) s, answers_serEscCC (hpair _) s,
      fun y => answers_serEsc (hpair y) s⟩
  case unknownPair =>
    have hy : isEscaped y = false := by simpa [isEscaped, and_assoc] using And.intro h56 (And.intro h9E hCC)
    exact answers_serEsc (serUnescape_unknownPair hy rest) s
  case dangling => exact rfl

/-- Settles O38: the body is the escaping of the sealed packet. -/
theorem serFrameRoundTrip : Obligations.SerFrameRoundTrip := by
  intro p s
  have hdecode (dir : Dir) :
      serFrameDecode (0x56 :: serEscape (frameSeal p) ++ [0x9E]) dir = decodeByDir dir p := by
    rw [serFrameDecode_frame, serBodyDecode_frameSeal]
  exact ⟨fun _ => rfl, serEscape (frameSeal p), answers_serFrameEncode p s, (notMem_serEscape _).1, (notMem_serEscape _).2,
    answers_serUnescape (serUnescape_serEscape _) s, ⟨_, answers_cmdDecode p s, answers_serFrameDecode (hdecode .cmd) s⟩,
    ⟨_, answers_stsDecode p s, answers_serFrameDecode (hdecode .rsp) s⟩⟩

/-- Settles O39: the two delimiters, then the body's first error. -/
theorem serFrameDecodeErrors : Obligations.SerFrameDecodeErrors := by
  intro dir s
  have hbody {body : Bytes} {r : Result} (h : serBodyDecode body dir = r) :
      answers (.serFrameDecode (0x56 :: body ++ [0x9E]) dir) s r :=
    answers_serFrameDecode ((serFrameDecode_frame body dir).trans h) s
  exact ⟨fun _ _ => rfl, rfl, fun b rest h => answers_serFrameDecode (serFrameDecode_badStart h rest dir) s, rfl,
    fun body b h => answers_serFrameDecode (serFrameDecode_badEnd h body dir) s,
    fun body h => hbody (serBodyDecode_of_noEscaping h dir),
    fun u h => hbody (serBodyDecode_of_error (frameOpen_short h) dir),
    fun p lo hi h => hbody (serBodyDecode_of_error (frameOpen_checksumInvalid h) dir)⟩

end Sys2Proof.Machine
end

section
/-! Proofs about CI_DECODE on a stream of records (30_encoding.md R79 to R82; 42_client_info.md R152 to R159): what the records
of a stream leave in the loop variables, said by `summary` in the spec's own terms; the loop reaches that summary over legal
records, whatever follows them, and the first illegal record ends it. -/

namespace Sys2Proof.Machine

open Sys2Proof.Spec

/-! ## The triplets of a COMMAND_TIMEOUTS value (R156) -/

/-- The default that a list of triplets sets: the last of code 0. -/
def defaultOf (ts : List (Byte × U16)) : Option U16 := ((ts.filter fun q => q.1 = 0x00).getLast?).map Prod.snd

/-- One more triplet, as an override of the model. -/
def upsertTriplet (o : List (CommandCode × U16)) (q : Byte × U16) : List (CommandCode × U16) :=
  match CommandCode.ofByte q.1 with
  | some c => upsert o c q.2
  | none => o

/-- The overrides that a list of triplets makes. -/
def overridesOf (ts : List (Byte × U16)) : List (CommandCode × U16) := ts.foldl upsertTriplet []

theorem defaultOf_append_zero (ts : List (Byte × U16)) (t : U16) : defaultOf (ts ++ [(0x00, t)]) = some t := by
  simp [defaultOf]

theorem defaultOf_append_ne {c : Byte} (h : c ≠ 0x00) (ts : List (Byte × U16)) (t : U16) :
    defaultOf (ts ++ [(c, t)]) = defaultOf ts := by
  rw [defaultOf, List.filter_append, List.filter_cons_of_neg (by simpa using h), List.filter_nil, List.append_nil,
    defaultOf]

theorem overridesOf_append (ts : List (Byte × U16)) (q : Byte × U16) :
    overridesOf (ts ++ [q]) = upsertTriplet (overridesOf ts) q := by
  simp [overridesOf]

theorem upsertTriplet_of_some {c : Byte} {code : CommandCode} (h : CommandCode.ofByte c = some code)
    (o : List (CommandCode × U16)) (t : U16) : upsertTriplet o (c, t) = upsert o code t := by
  simp [upsertTriplet, h]

theorem upsertTriplet_of_none {c : Byte} (h : CommandCode.ofByte c = none) (o : List (CommandCode × U16)) (t : U16) :
    upsertTriplet o (c, t) = o := by
  simp [upsertTriplet, h]

theorem triplets_cons (c lo hi : Byte) (v : Bytes) : triplets (c :: lo :: hi :: v) = (c, le16 lo hi) :: triplets v := by
  have hcount : (c :: lo :: hi :: v).length / 3 = v.length / 3 + 1 := by simp only [List.length_cons]; omega
  rw [triplets, hcount, List.range_succ_eq_map, List.map_cons, List.map_map]
  rfl

theorem triplets_one (c lo hi : Byte) : triplets [c, lo, hi] = [(c, le16 lo hi)] := triplets_cons c lo hi []

theorem triplets_of_short {v : Bytes} (h : v.length < 3) : triplets v = [] := by
  simp [triplets, Nat.div_eq_of_lt h]

theorem tripletCodesLegal_cons {c lo hi : Byte} {v : Bytes} :
    tripletCodesLegal (c :: lo :: hi :: v) ↔ c.toNat ≤ 5 ∧ tripletCodesLegal v := by
  constructor
  · intro h
    refine ⟨h 0 (by simp), fun j hj => ?_⟩
    simpa [Nat.mul_add] using h (j + 1) (by simp only [List.length_cons]; omega)
  · rintro ⟨hc, hv⟩ (- | j) hj
    · exact hc
    · simpa [Nat.mul_add] using hv j (by simp only [List.length_cons] at hj; omega)

theorem tripletCodesLegal_nil : tripletCodesLegal [] := nofun

/-- A value that does not begin with a triplet. -/
theorem length_lt_three {v : Bytes} (h : ∀ c lo hi rest, v = c :: lo :: hi :: rest → False) : v.length < 3 := by
  match v with
  | [] | [_] | [_, _] => simp
  | c :: lo :: hi :: rest => exact (h c lo hi rest rfl).elim

theorem ofByte_ne_none {c : Byte} (h0 : c ≠ 0x00) (h5 : c.toNat ≤ 5) : CommandCode.ofByte c ≠ none := by
  intro hnone
  rcases CommandCode.ofByte_none.mp hnone with h | h
  · exact h0 h
  · omega

/-- Legal triplets, after those that made the loop variables what they are (R156, R158). -/
theorem ciTriplets_legal {v : Bytes} {a : CiFields} {ts : List (Byte × U16)} (h : tripletCodesLegal v)
    (hdeft : a.deft = defaultOf ts) (hovr : a.ovr = overridesOf ts) :
    ciTriplets v a =
      .ok { a with deft := defaultOf (ts ++ triplets v), ovr := overridesOf (ts ++ triplets v) } := by
  fun_induction ciTriplets v a generalizing ts with
  | case1 lo hi rest a ih =>
    obtain ⟨-, hrest⟩ := tripletCodesLegal_cons.mp h
    rw [ih (ts := ts ++ [(0x00, le16 lo hi)]) hrest (defaultOf_append_zero ts _).symm
      (by rw [overridesOf_append, upsertTriplet_of_none rfl, hovr]), triplets_cons, List.append_assoc]
    rfl
  | case2 c lo hi rest a hc code hcode ih =>
    obtain ⟨-, hrest⟩ := tripletCodesLegal_cons.mp h
    rw [ih (ts := ts ++ [(c, le16 lo hi)]) hrest (by rw [defaultOf_append_ne hc, hdeft])
      (by rw [overridesOf_append, upsertTriplet_of_some hcode, hovr]), triplets_cons, List.append_assoc]
    rfl
  | case3 c lo hi rest a hc hnone =>
    exact absurd hnone (ofByte_ne_none hc (tripletCodesLegal_cons.mp h).1)
  | case4 v a hshort =>
    rw [triplets_of_short (length_lt_three hshort), List.append_nil, ← hdeft, ← hovr]

/-- R153: a code above 5 among whole triplets. -/
theorem ciTriplets_illegal {v : Bytes} {a : CiFields} (hlen : v.length % 3 = 0) (h : ¬ tripletCodesLegal v) :
    ciTriplets v a = .error .unknownCommand := by
  have hrest {c lo hi : Byte} {rest : Bytes} (hlen : (c :: lo :: hi :: rest).length % 3 = 0) : rest.length % 3 = 0 := by
    simp only [List.length_cons] at hlen
    omega
  fun_induction ciTriplets v a with
  | case1 lo hi rest a ih =>
    exact ih (hrest hlen) fun hlegal => h (tripletCodesLegal_cons.mpr ⟨by decide, hlegal⟩)
  | case2 c lo hi rest a _ code hcode ih =>
    have hc : c.toNat ≤ 5 := by rw [CommandCode.ofByte_some hcode]; cases code <;> decide
    exact ih (hrest hlen) fun hlegal => h (tripletCodesLegal_cons.mpr ⟨hc, hlegal⟩)
  | case3 => rfl
  | case4 v a hshort =>
    have hlt := length_lt_three hshort
    obtain rfl : v = [] := List.length_eq_zero_iff.mp (by omega)
    exact absurd tripletCodesLegal_nil h

/-! ## The overrides of the spec's formula (R158) -/

theorem commandCode_injective {c c' : CommandCode} (h : c.code = c'.code) : c = c' :=
  Option.some.inj (by rw [← CommandCode.ofByte_code c, h, CommandCode.ofByte_code])

theorem commandCode_ne_zero (c : CommandCode) : c.code ≠ 0x00 := by
  cases c <;> decide

/-- An override with its command as the byte on the wire. -/
def wireOverride (p : CommandCode × U16) : Byte × U16 := (p.1.code, p.2)

theorem mem_wireOverride {o : List (CommandCode × U16)} {c : CommandCode} :
    c.code ∈ (o.map wireOverride).map Prod.fst ↔ c ∈ o.map Prod.fst := by
  simp only [List.map_map, List.mem_map, Function.comp_apply, wireOverride]
  exact ⟨fun ⟨p, hp, h⟩ => ⟨p, hp, commandCode_injective h⟩, fun ⟨p, hp, h⟩ => ⟨p, hp, congrArg _ h⟩⟩

theorem addOverride_zero (o : List (Byte × U16)) (t : U16) : addOverride o (0x00, t) = o := by
  simp [addOverride]

theorem addOverride_nil {q : Byte × U16} (h : q.1 ≠ 0x00) : addOverride [] q = [q] := by
  rw [addOverride, if_neg h]
  rfl

/-- The first override has the code: it is replaced, and no other has it. -/
theorem addOverride_cons_same {q : Byte × U16} {o : List (Byte × U16)} (h : q.1 ≠ 0x00) (ho : q.1 ∉ o.map Prod.fst)
    (t : U16) : addOverride ((q.1, t) :: o) q = q :: o := by
  have hkeep : o.map (fun r => if r.1 = q.1 then q else r) = o :=
    (List.map_congr_left fun r hr => if_neg fun heq : r.1 = q.1 => ho (heq ▸ List.mem_map_of_mem hr)).trans (List.map_id o)
  rw [addOverride, if_neg h, if_pos (by simp), List.map_cons, if_pos rfl, hkeep]

theorem addOverride_cons_other {x : Byte} {q : Byte × U16} (h : q.1 ≠ 0x00) (hx : x ≠ q.1) (t : U16)
    (o : List (Byte × U16)) : addOverride ((x, t) :: o) q = (x, t) :: addOverride o q := by
  rw [addOverride, addOverride, if_neg h, if_neg h]
  have hcodes : q.1 ∈ ((x, t) :: o).map Prod.fst ↔ q.1 ∈ o.map Prod.fst := by simp [hx.symm]
  by_cases hmem : q.1 ∈ o.map Prod.fst
  · rw [if_pos hmem, if_pos (hcodes.mpr hmem), List.map_cons, if_neg hx]
  · rw [if_neg hmem, if_neg (hcodes.not.mpr hmem), List.cons_append]

/-- The model's `upsert` is the spec's formula, where no code repeats (R34, R158). -/
theorem upsert_wireOverride {o : List (CommandCode × U16)} (h : CodesDistinct o) (c : CommandCode) (t : U16) :
    (upsert o c t).map wireOverride = addOverride (o.map wireOverride) (c.code, t) := by
  have hc : (c.code, t).1 ≠ 0x00 := commandCode_ne_zero c
  induction o with
  | nil => rw [List.map_nil, addOverride_nil hc]; rfl
  | cons p o ih =>
    obtain ⟨c', t'⟩ := p
    obtain ⟨hnot, hrest⟩ : c' ∉ o.map Prod.fst ∧ CodesDistinct o := List.nodup_cons.mp h
    by_cases heq : c' = c
    · subst heq
      rw [upsert, if_pos rfl]
      exact (addOverride_cons_same hc (mem_wireOverride.not.mpr hnot) t').symm
    · have hcode : c'.code ≠ c.code := fun hcode => heq (commandCode_injective hcode)
      rw [upsert, if_neg heq, List.map_cons, ih hrest]
      exact (addOverride_cons_other hc hcode t' _).symm

theorem overridesOf_codesDistinct (ts : List (Byte × U16)) : CodesDistinct (overridesOf ts) := by
  induction ts using List.reverseRecOn with
  | nil => exact List.nodup_nil
  | append_singleton ts q ih =>
    rw [overridesOf_append, upsertTriplet]
    split
    · exact ih.upsert _ _
    · exact ih

/-- The overrides of triplets with legal codes, by the spec's formula (R158). -/
theorem overridesOf_wireOverride {ts : List (Byte × U16)} (h : ∀ q ∈ ts, q.1.toNat ≤ 5) :
    (overridesOf ts).map wireOverride = ts.foldl addOverride [] := by
  induction ts using List.reverseRecOn with
  | nil => rfl
  | append_singleton ts q ih =>
    obtain ⟨c, t⟩ := q
    rw [List.foldl_concat, ← ih fun q hq => h q (List.mem_append_left _ hq), overridesOf_append]
    cases hcode : CommandCode.ofByte c with
    | some code =>
      rw [upsertTriplet_of_some hcode, upsert_wireOverride (overridesOf_codesDistinct ts),
        CommandCode.ofByte_some hcode]
    | none =>
      have hc : c.toNat ≤ 5 := h (c, t) (by simp)
      obtain rfl : c = 0x00 := by
        by_contra h0
        exact ofByte_ne_none h0 hc hcode
      rw [upsertTriplet_of_none hcode, addOverride_zero]

/-! ## What the records of a stream leave in the loop variables (R152 to R158) -/

/-- A PROTOCOL_VERSION value (R154). -/
def versionOf (v : Bytes) : Version := ⟨v.getD 0 0, v.getD 1 0, v.getD 2 0, v[3]?⟩

/-- A BUFFER_INFO value: size, count (R155). -/
def bufferOf (v : Bytes) : U16 × Byte := (v.getD 1 0 ++ v.getD 0 0, v.getD 2 0)

/-- An INTER_TRANSACTION_DELAY value (R157). -/
def delayOf (v : Bytes) : U32 := v.getD 3 0 ++ v.getD 2 0 ++ v.getD 1 0 ++ v.getD 0 0

/-- The loop variables after the records `l`: for each type the last record, for the timeouts all triplets in order. -/
def summary (p5 : Byte) (l : List (Byte × Bytes)) : CiFields where
  ver := (lastValue l 0x01).map versionOf
  buf := (lastValue l 0x02).map bufferOf
  deft := lastDefault l
  ovr := overridesOf (streamTriplets l)
  itd := (lastValue l p5).map delayOf

section Summary

variable {p5 t : Byte} {v : Bytes} {l : List (Byte × Bytes)}

theorem lastDefault_eq (l : List (Byte × Bytes)) : lastDefault l = defaultOf (streamTriplets l) := rfl

theorem lastValue_append_same (l : List (Byte × Bytes)) (t : Byte) (v : Bytes) :
    lastValue (l ++ [(t, v)]) t = some v := by
  simp [lastValue]

theorem lastValue_append_other (l : List (Byte × Bytes)) {t u : Byte} (h : t ≠ u) (v : Bytes) :
    lastValue (l ++ [(t, v)]) u = lastValue l u := by
  simp [lastValue, h]

theorem lastValue_eq_none (h : ∀ p ∈ l, p.1 ≠ t) : lastValue l t = none := by
  have hnil : l.filter (fun p => p.1 = t) = [] := List.filter_eq_nil_iff.mpr (by simpa using h)
  rw [lastValue, hnil]
  rfl

/-- A legal P5 is none of the three fixed types (R151). -/
theorem lastValue_delay_eq_none (hp5 : itdTypeLegal p5 = true)
    (h : ∀ p ∈ l, p.1 = 0x01 ∨ p.1 = 0x02 ∨ p.1 = 0x03) : lastValue l p5 = none := by
  obtain ⟨h1, h2, h3⟩ := itdTypeLegal_iff.mp hp5
  refine lastValue_eq_none fun p hp hpt => ?_
  rcases h p hp with ht | ht | ht
  · exact h1 (hpt.symm.trans ht)
  · exact h2 (hpt.symm.trans ht)
  · exact h3 (hpt.symm.trans ht)

theorem lastValue_cons_same (h : lastValue l t = none) (v : Bytes) : lastValue ((t, v) :: l) t = some v := by
  have hnil : l.filter (fun p => p.1 = t) = [] := by simpa [lastValue] using h
  simp [lastValue, hnil]

theorem lastValue_cons_other {u : Byte} (h : t ≠ u) (v : Bytes) (l : List (Byte × Bytes)) :
    lastValue ((t, v) :: l) u = lastValue l u := by
  simp [lastValue, h]

theorem streamTriplets_cons_other (h : t ≠ 0x03) (v : Bytes) (l : List (Byte × Bytes)) :
    streamTriplets ((t, v) :: l) = streamTriplets l := by
  rw [streamTriplets, List.filter_cons_of_neg (by simpa using h), streamTriplets]

theorem streamTriplets_append_same (l : List (Byte × Bytes)) (v : Bytes) :
    streamTriplets (l ++ [(0x03, v)]) = streamTriplets l ++ triplets v := by
  simp [streamTriplets]

theorem streamTriplets_append_other (l : List (Byte × Bytes)) (h : t ≠ 0x03) (v : Bytes) :
    streamTriplets (l ++ [(t, v)]) = streamTriplets l := by
  rw [streamTriplets, List.filter_append, List.filter_cons_of_neg (by simpa using h), List.filter_nil, List.append_nil,
    streamTriplets]

theorem summary_append_version (hp5 : itdTypeLegal p5 = true) (l : List (Byte × Bytes)) (v : Bytes) :
    summary p5 (l ++ [(0x01, v)]) = { summary p5 l with ver := some (versionOf v) } := by
  obtain ⟨h1, -, -⟩ := itdTypeLegal_iff.mp hp5
  simp only [summary, lastDefault_eq, lastValue_append_same, Option.map_some,
    lastValue_append_other l (show (0x01 : Byte) ≠ 0x02 by decide), lastValue_append_other l h1.symm,
    streamTriplets_append_other l (show (0x01 : Byte) ≠ 0x03 by decide)]

theorem summary_append_buffer (hp5 : itdTypeLegal p5 = true) (l : List (Byte × Bytes)) (v : Bytes) :
    summary p5 (l ++ [(0x02, v)]) = { summary p5 l with buf := some (bufferOf v) } := by
  obtain ⟨-, h2, -⟩ := itdTypeLegal_iff.mp hp5
  simp only [summary, lastDefault_eq, lastValue_append_same, Option.map_some,
    lastValue_append_other l (show (0x02 : Byte) ≠ 0x01 by decide), lastValue_append_other l h2.symm,
    streamTriplets_append_other l (show (0x02 : Byte) ≠ 0x03 by decide)]

theorem summary_append_timeouts (hp5 : itdTypeLegal p5 = true) (l : List (Byte × Bytes)) (v : Bytes) :
    summary p5 (l ++ [(0x03, v)]) =
      { summary p5 l with
        deft := defaultOf (streamTriplets l ++ triplets v), ovr := overridesOf (streamTriplets l ++ triplets v) } := by
  obtain ⟨-, -, h3⟩ := itdTypeLegal_iff.mp hp5
  simp only [summary, lastDefault_eq, streamTriplets_append_same, lastValue_append_other l h3.symm,
    lastValue_append_other l (show (0x03 : Byte) ≠ 0x01 by decide),
    lastValue_append_other l (show (0x03 : Byte) ≠ 0x02 by decide)]

theorem summary_append_delay (hp5 : itdTypeLegal p5 = true) (l : List (Byte × Bytes)) (v : Bytes) :
    summary p5 (l ++ [(p5, v)]) = { summary p5 l with itd := some (delayOf v) } := by
  obtain ⟨h1, h2, h3⟩ := itdTypeLegal_iff.mp hp5
  simp only [summary, lastDefault_eq, lastValue_append_same, Option.map_some, lastValue_append_other l h1,
    lastValue_append_other l h2, streamTriplets_append_other l h3]

/-! ## One record (R152 to R157) -/

theorem ciKnownType_iff : ciKnownType p5 t = true ↔ typeKnown p5 t := by
  simp only [ciKnownType, Bool.or_eq_true, beq_iff_eq, or_assoc]
  rfl

theorem ciRecord_delay (h : t ≠ 0x01 ∧ t ≠ 0x02 ∧ t ≠ 0x03) (v : Bytes) (a : CiFields) :
    ciRecord t v a = ciDelay v a := by
  obtain ⟨h1, h2, h3⟩ : t ≠ versionType ∧ t ≠ bufferInfoType ∧ t ≠ timeoutsType := h
  simp [ciRecord, h1, h2, h3]

theorem ciVersion_legal (h : v.length = 3 ∨ v.length = 4) (a : CiFields) :
    ciVersion v a = .ok { a with ver := some (versionOf v) } := by
  rcases h with h | h
  · obtain ⟨major, minor, patch, rfl⟩ := List.length_eq_three.mp h
    rfl
  · match v, h with
    | [major, minor, patch, pre], _ => rfl

theorem ciBufferInfo_legal (h : v.length = 3) (a : CiFields) :
    ciBufferInfo v a = .ok { a with buf := some (bufferOf v) } := by
  obtain ⟨lo, hi, count, rfl⟩ := List.length_eq_three.mp h
  rfl

theorem ciDelay_legal (h : v.length = 4) (a : CiFields) : ciDelay v a = .ok { a with itd := some (delayOf v) } := by
  match v, h with
  | [b0, b1, b2, b3], _ => rfl

/-- A length of R82's third case. -/
theorem ciRecord_badLength (h : lengthBad t v.length) (a : CiFields) : ciRecord t v a = .error .badLength := by
  rcases h with ⟨rfl, h3, h4⟩ | ⟨rfl, h3⟩ | ⟨rfl, hmod⟩ | ⟨h1, h2, h3, h4⟩
  · change ciVersion v a = _
    unfold ciVersion
    split
    · exact absurd rfl h3
    · exact absurd rfl h4
    · rfl
  · change ciBufferInfo v a = _
    unfold ciBufferInfo
    split
    · exact absurd rfl h3
    · rfl
  · exact if_pos hmod
  · rw [ciRecord_delay ⟨h1, h2, h3⟩]
    unfold ciDelay
    split
    · exact absurd rfl h4
    · rfl

theorem recordLegal_known {p : Byte × Bytes} (h : recordLegal p5 p) : ciKnownType p5 p.1 = true ∧ p.2.length ≤ 255 := by
  rw [ciKnownType_iff]
  rcases h with ⟨ht, hlen⟩ | ⟨ht, hlen⟩ | ⟨ht, -, hlen, -⟩ | ⟨ht, hlen⟩
  · exact ⟨.inl ht, by omega⟩
  · exact ⟨.inr (.inl ht), by omega⟩
  · exact ⟨.inr (.inr (.inl ht)), hlen⟩
  · exact ⟨.inr (.inr (.inr ht)), by omega⟩

theorem recordLegal_timeouts (hmod : v.length % 3 = 0) (hlen : v.length ≤ 255) (hcodes : tripletCodesLegal v) :
    recordLegal p5 (0x03, v) :=
  .inr (.inr (.inl ⟨rfl, hmod, hlen, hcodes⟩))

theorem forall_recordLegal {p q r : Byte × Bytes} (hp : recordLegal p5 p) (hq : recordLegal p5 q)
    (hr : recordLegal p5 r) : ∀ x ∈ [p, q, r], recordLegal p5 x := by
  simp [hp, hq, hr]

/-- A legal record takes the loop variables from the summary before it to the one after it. -/
theorem ciRecord_summary (hp5 : itdTypeLegal p5 = true) {p : Byte × Bytes} (h : recordLegal p5 p)
    (l : List (Byte × Bytes)) : ciRecord p.1 p.2 (summary p5 l) = .ok (summary p5 (l ++ [p])) := by
  obtain ⟨t, v⟩ := p
  rcases h with ⟨ht, hlen⟩ | ⟨ht, hlen⟩ | ⟨ht, hmod, -, hcodes⟩ | ⟨ht, hlen⟩ <;> obtain rfl : t = _ := ht
  · rw [summary_append_version hp5]
    exact ciVersion_legal hlen _
  · rw [summary_append_buffer hp5]
    exact ciBufferInfo_legal hlen _
  · rw [summary_append_timeouts hp5]
    exact (if_neg (not_not.mpr hmod)).trans (ciTriplets_legal hcodes rfl rfl)
  · rw [summary_append_delay hp5, ciRecord_delay (itdTypeLegal_iff.mp hp5)]
    exact ciDelay_legal hlen _

end Summary

/-! ## The loop over legal records, whatever follows (R152) -/

section Loop

variable {p5 t : Byte} {good : List (Byte × Bytes)}

theorem ciLoop_nil (p5 : Byte) (fuel : Nat) (a : CiFields) : ciLoop p5 fuel [] a = .ok a := by
  cases fuel <;> rfl

theorem ciLoop_unknownType (h : ¬ typeKnown p5 t) (fuel : Nat) (tail : Bytes) (a : CiFields) :
    ciLoop p5 (fuel + 1) (t :: tail) a = .error .unknownType := by
  have hunknown : ciKnownType p5 t = false := by simpa using ciKnownType_iff.not.mpr h
  simp [ciLoop, hunknown]

theorem ciLoop_noLength (h : typeKnown p5 t) (fuel : Nat) (a : CiFields) :
    ciLoop p5 (fuel + 1) [t] a = .error .overrun := by
  simp [ciLoop, ciKnownType_iff.mpr h]

theorem ciLoop_overrun (h : typeKnown p5 t) {len : Byte} {body : Bytes} (hlen : body.length < len.toNat) (fuel : Nat)
    (a : CiFields) : ciLoop p5 (fuel + 1) (t :: len :: body) a = .error .overrun := by
  simp [ciLoop, ciKnownType_iff.mpr h, hlen]

/-- Each legal record takes one turn. -/
theorem ciLoop_stream (hp5 : itdTypeLegal p5 = true) (h : ∀ p ∈ good, recordLegal p5 p) (fuel : Nat) (tail : Bytes) :
    ciLoop p5 (fuel + good.length) (stream good ++ tail) CiFields.start = ciLoop p5 fuel tail (summary p5 good) := by
  induction good using List.reverseRecOn generalizing fuel tail with
  | nil => rfl
  | append_singleton good p ih =>
    have hp : recordLegal p5 p := h p (by simp)
    obtain ⟨hknown, hlen⟩ := recordLegal_known hp
    have hsplit : stream (good ++ [p]) ++ tail = stream good ++ (record p ++ tail) := by simp [stream]
    have hfuel : fuel + (good ++ [p]).length = fuel + 1 + good.length := by
      simp only [List.length_append, List.length_singleton]
      omega
    rw [hsplit, hfuel, ih (fun q hq => h q (List.mem_append_left _ hq))]
    exact ciLoop_record_ok fuel hknown hlen (ciRecord_summary hp5 hp good)

theorem length_le_stream_length (good : List (Byte × Bytes)) : good.length ≤ (stream good).length := by
  induction good with
  | nil => simp
  | cons p good ih =>
    have hcons : stream (p :: good) = record p ++ stream good := List.flatMap_cons
    simp only [hcons, record, List.length_append, List.length_cons]
    omega

/-- CI_DECODE of legal records and a tail runs its loop on the tail, from the summary of the records. -/
theorem ciDecode_stream_append (hp5 : itdTypeLegal p5 = true) (h : ∀ p ∈ good, recordLegal p5 p) (tail : Bytes) :
    ∃ fuel, tail.length ≤ fuel ∧
      ciDecode p5 (stream good ++ tail) = (ciLoop p5 fuel tail (summary p5 good)).bind ciFinish := by
  have hle := length_le_stream_length good
  have hlen : (stream good ++ tail).length = (stream good ++ tail).length - good.length + good.length := by
    simp only [List.length_append]
    omega
  refine ⟨(stream good ++ tail).length - good.length, by simp only [List.length_append]; omega, ?_⟩
  rw [← ciLoop_stream hp5 h, ← hlen, ciDecode]
  cases ciLoop p5 (stream good ++ tail).length (stream good ++ tail) CiFields.start <;> rfl

theorem ciDecode_stream (hp5 : itdTypeLegal p5 = true) (h : ∀ p ∈ good, recordLegal p5 p) :
    ciDecode p5 (stream good) = ciFinish (summary p5 good) := by
  obtain ⟨fuel, -, hdecode⟩ := ciDecode_stream_append hp5 h []
  rwa [List.append_nil, ciLoop_nil] at hdecode

/-- A first illegal record decides. -/
theorem ciDecode_stream_fault (hp5 : itdTypeLegal p5 = true) (h : ∀ p ∈ good, recordLegal p5 p) {tail : Bytes} {e : CiSub}
    (hfault : ∀ fuel a, ciLoop p5 (fuel + 1) (t :: tail) a = .error e) :
    ciDecode p5 (stream good ++ t :: tail) = .error e := by
  obtain ⟨fuel, hfuel, hdecode⟩ := ciDecode_stream_append hp5 h (t :: tail)
  obtain ⟨fuel, rfl⟩ := Nat.exists_eq_add_of_le' (Nat.le_trans (Nat.le_add_left 1 tail.length) hfuel)
  rw [hdecode, hfault]
  rfl

end Loop

/-! ## What the client-info instructions answer with -/

section Answers

variable {s : State} {d : Bytes} {l : List (Byte × Bytes)}

theorem answers_ciDecode_ok {ci : ClientInfo} (h : ciDecode s.itdTypeCode d = .ok ci) :
    answers (.ciDecode d) s (.value (.info ci)) := by
  rw [answers, answers_ciDecode, h, ciResult]

theorem answers_ciDecode_error {e : CiSub} (h : ciDecode s.itdTypeCode d = .error e) :
    answers (.ciDecode d) s (infoErr e) := by
  rw [answers, answers_ciDecode, h, ciResult, infoErr]

/-- R159: with the mandatory fields there, the record of the summary. -/
theorem answers_ciDecode_stream (hp5 : itdTypeLegal s.itdTypeCode = true) (h : ∀ p ∈ l, recordLegal s.itdTypeCode p)
    {ver buf : Bytes} {ts : List (Byte × U16)} {deft : U16} (hver : lastValue l 0x01 = some ver)
    (hbuf : lastValue l 0x02 = some buf) (hts : streamTriplets l = ts) (hdeft : defaultOf ts = some deft) :
    answers (.ciDecode (stream l)) s (.value (.info ⟨versionOf ver, (bufferOf buf).2, (bufferOf buf).1, deft,
      overridesOf ts, (lastValue l s.itdTypeCode).map delayOf⟩)) := by
  refine answers_ciDecode_ok ?_
  rw [ciDecode_stream hp5 h]
  simp only [ciFinish, summary, hver, hbuf, lastDefault_eq, hts, hdeft, Option.map_some]

/-- The same for records of the three fixed types: no delay. -/
theorem answers_noDelay (hp5 : itdTypeLegal s.itdTypeCode = true) (h : ∀ p ∈ l, recordLegal s.itdTypeCode p)
    (htypes : ∀ p ∈ l, p.1 = 0x01 ∨ p.1 = 0x02 ∨ p.1 = 0x03) {ver buf : Bytes}
    {ts : List (Byte × U16)} {deft : U16} (hver : lastValue l 0x01 = some ver) (hbuf : lastValue l 0x02 = some buf)
    (hts : streamTriplets l = ts) (hdeft : defaultOf ts = some deft) :
    answers (.ciDecode (stream l)) s (.value (.info ⟨versionOf ver, (bufferOf buf).2, (bufferOf buf).1, deft,
      overridesOf ts, none⟩)) := by
  simpa only [lastValue_delay_eq_none hp5 htypes, Option.map_none] using answers_ciDecode_stream hp5 h hver hbuf hts hdeft

end Answers

/-- The codes of the triplets of legal records. -/
theorem streamTriplets_codes {p5 : Byte} (hp5 : itdTypeLegal p5 = true) {l : List (Byte × Bytes)}
    (h : ∀ p ∈ l, recordLegal p5 p) : ∀ q ∈ streamTriplets l, q.1.toNat ≤ 5 := by
  intro q hq
  obtain ⟨p, hp, hqp⟩ := List.mem_flatMap.mp hq
  obtain ⟨hpl, ht⟩ := List.mem_filter.mp hp
  have ht : p.1 = 0x03 := of_decide_eq_true ht
  obtain ⟨-, -, h3⟩ := itdTypeLegal_iff.mp hp5
  obtain ⟨j, hj, rfl⟩ := List.mem_map.mp hqp
  have hj := List.mem_range.mp hj
  rcases h p hpl with ⟨hp1, -⟩ | ⟨hp1, -⟩ | ⟨-, -, -, hcodes⟩ | ⟨hp1, -⟩
  · exact absurd (ht.symm.trans hp1) (by decide)
  · exact absurd (ht.symm.trans hp1) (by decide)
  · exact hcodes j (by omega)
  · exact absurd (hp1.symm.trans ht) h3

/-! ## The statements -/

/-- Settles O25: each kind of fault ends the loop in its first turn after the legal records. -/
theorem ciDecodeFirstFaultDecides : Obligations.CiDecodeFirstFaultDecides := by
  intro s good hp5 hgood
  have hfault {t : Byte} {tail : Bytes} {e : CiSub}
      (h : ∀ fuel a, ciLoop s.itdTypeCode (fuel + 1) (t :: tail) a = .error e) :
      answers (.ciDecode (stream good ++ t :: tail)) s (infoErr e) :=
    answers_ciDecode_error (ciDecode_stream_fault hp5 hgood h)
  have hrecord {t : Byte} {v tail : Bytes} {e : CiSub} (ht : typeKnown s.itdTypeCode t) (hlen : v.length ≤ 255)
      (h : ∀ a, ciRecord t v a = .error e) :
      answers (.ciDecode (stream good ++ record (t, v) ++ tail)) s (infoErr e) := by
    rw [List.append_assoc]
    exact hfault fun fuel a => ciLoop_record_error fuel (ciKnownType_iff.mpr ht) hlen (h a)
  refine ⟨fun t tail ht => hfault fun fuel a => ciLoop_unknownType ht fuel tail a,
    fun t ht => hfault fun fuel a => ciLoop_noLength ht fuel a,
    fun t len body ht hlen => hfault fun fuel a => ciLoop_overrun ht hlen fuel a,
    fun t v tail ht hlen hbad => hrecord ht hlen fun a => ciRecord_badLength hbad a,
    fun v tail hlen hmod hcodes => hrecord (.inr (.inr (.inl rfl))) hlen fun a => ?_⟩
  exact (if_neg (not_not.mpr hmod)).trans (ciTriplets_illegal hmod hcodes)

/-- Settles O27: the record of the summary, its overrides by the spec's formula. -/
theorem ciDecodeLastWins : Obligations.CiDecodeLastWins := by
  intro s l ver buf deft hp5 hlegal hver hbuf hdeft
  exact ⟨_, answers_ciDecode_stream hp5 hlegal hver hbuf rfl hdeft, rfl, rfl, rfl, rfl,
    overridesOf_wireOverride (streamTriplets_codes hp5 hlegal), rfl⟩

/-- Settles O33: each row is CI_DECODE of the stream that begins with its record. -/
theorem parameterRowsComplete : Obligations.ParameterRowsComplete :=
  fun len body s =>
    ⟨⟨_, (exec_tlvProtocolVersion len body s).trans (answers_ciDecode _ s), answers_ciDecode _ s⟩,
     ⟨_, (exec_tlvBufferInfo len body s).trans (answers_ciDecode _ s), answers_ciDecode _ s⟩,
     ⟨_, (exec_tlvCommandTimeouts len body s).trans (answers_ciDecode _ s), answers_ciDecode _ s⟩,
     ⟨_, (exec_tlvInterTransactionDelay len body s).trans (answers_ciDecode _ s), answers_ciDecode _ s⟩⟩

/-- Settles O32: each stream is one of legal records, and its summary has the fields. -/
theorem parameterRowFields : Obligations.ParameterRowFields := by
  intro s a b c d lo hi n tlo thi hp5
  obtain ⟨h1, h2, h3⟩ := itdTypeLegal_iff.mp hp5
  have hver3 : recordLegal s.itdTypeCode (0x01, [a, b, c]) := .inl ⟨rfl, .inl rfl⟩
  have hver4 : recordLegal s.itdTypeCode (0x01, [a, b, c, d]) := .inl ⟨rfl, .inr rfl⟩
  have hbuf : recordLegal s.itdTypeCode (0x02, [lo, hi, n]) := .inr (.inl ⟨rfl, rfl⟩)
  have hdeft : recordLegal s.itdTypeCode (0x03, [0x00, tlo, thi]) :=
    recordLegal_timeouts (by simp) (by simp) (tripletCodesLegal_cons.mpr ⟨by decide, tripletCodesLegal_nil⟩)
  have htwo : recordLegal s.itdTypeCode (0x03, [0x00, tlo, thi, 0x04, lo, hi]) :=
    recordLegal_timeouts (by simp) (by simp) (tripletCodesLegal_cons.mpr ⟨by decide,
      tripletCodesLegal_cons.mpr ⟨by decide, tripletCodesLegal_nil⟩⟩)
  have hitd : recordLegal s.itdTypeCode (s.itdTypeCode, [a, b, c, d]) := .inr (.inr (.inr ⟨rfl, rfl⟩))
  have hone : triplets [0x00, tlo, thi] ++ [] = [(0x00, thi ++ tlo)] := congrArg (· ++ []) (triplets_one 0x00 tlo thi)
  refine ⟨?version3, ?version4, ?buffer, ?timeouts, ?delay⟩
  case version3 =>
    exact answers_noDelay hp5 (forall_recordLegal hver3 hbuf hdeft) (by simp) rfl rfl hone rfl
  case version4 =>
    exact answers_noDelay hp5 (forall_recordLegal hver4 hbuf hdeft) (by simp) rfl rfl hone rfl
  case buffer =>
    exact answers_noDelay hp5 (forall_recordLegal hbuf hver3 hdeft) (by simp) rfl rfl hone rfl
  case timeouts =>
    have hts : triplets [0x00, tlo, thi, 0x04, lo, hi] ++ [] = [(0x00, thi ++ tlo), (0x04, hi ++ lo)] := by
      rw [triplets_cons, triplets_one]
      rfl
    exact answers_noDelay hp5 (forall_recordLegal htwo hver3 hbuf) (by simp) rfl rfl hts rfl
  case delay =>
    have hrest := lastValue_delay_eq_none hp5
      (l := [(0x01, [a, b, c]), (0x02, [lo, hi, n]), (0x03, [0x00, tlo, thi])]) (by simp)
    have hanswer := answers_ciDecode_stream hp5 (List.forall_mem_cons.mpr ⟨hitd, forall_recordLegal hver3 hbuf hdeft⟩)
      ((lastValue_cons_other h1 _ _).trans rfl) ((lastValue_cons_other h2 _ _).trans rfl)
      ((streamTriplets_cons_other h3 _ _).trans hone) rfl
    rwa [lastValue_cons_same hrest] at hanswer

end Sys2Proof.Machine
end

section
/-! Proofs about the Checksum Engine (40_checksum.md R101 to R106). `csum_toNat` ties the model's sum to the spec's word sum
`totalNat`, so that every law of the checksum is one of `totalNat` modulo 2^16: it adds over a first part of even length, and it
is the sum of the words of a list of pairs. -/

namespace Sys2Proof.Machine

open Sys2Proof.Spec

/-! ## The word sum -/

theorem totalNat_append {d : Bytes} (h : d.length % 2 = 0) (e : Bytes) :
    totalNat (d ++ e) = totalNat d + totalNat e := by
  fun_induction leWords d with
  | case1 => simp [totalNat_nil]
  | case2 lo => simp at h
  | case3 lo hi d ih =>
    have htail : totalNat (d ++ e) = totalNat d + totalNat e := ih (by simp only [List.length_cons] at h; omega)
    rw [List.cons_append, List.cons_append, totalNat_cons_cons, totalNat_cons_cons, htail]
    omega

theorem totalNat_flatMap (ws : List (Byte × Byte)) :
    totalNat (ws.flatMap fun w => [w.1, w.2]) = (ws.map fun w => w.1.toNat + 256 * w.2.toNat).sum := by
  induction ws with
  | nil => rfl
  | cons w ws ih =>
    rw [List.flatMap_cons, List.cons_append, List.cons_append, List.nil_append, totalNat_cons_cons, ih, List.map_cons,
      List.sum_cons]

theorem totalNat_le16Bytes (v : U16) : totalNat (le16Bytes v) = v.toNat := by
  rw [le16Bytes, totalNat_cons_cons, totalNat_nil, Nat.add_zero, ← le16_toNat, le16_bytes]

/-! ## The checksum, read off the word sum -/

theorem le16Bytes_eq_ofNat (v : U16) :
    le16Bytes v = [BitVec.ofNat 8 (v.toNat % 256), BitVec.ofNat 8 (v.toNat / 256)] := by
  simp only [le16Bytes, List.cons.injEq, and_true]
  constructor <;> apply BitVec.eq_of_toNat_eq <;> simp [Nat.shiftRight_eq_div_pow]

theorem csum_eq_iff_checksumNat {d : Bytes} {c : U16} : csum d = c ↔ c.toNat = checksumNat d := by
  rw [← BitVec.toNat_inj, csum_toNat, eq_comm]

/-- Two byte sequences have the same checksum exactly when their word sums agree modulo 2^16 (R105). -/
theorem csum_eq_csum_iff {d e : Bytes} : csum d = csum e ↔ totalNat d % 0x10000 = totalNat e % 0x10000 := by
  rw [csum_eq_iff_checksumNat, csum_toNat, checksumNat, checksumNat]
  omega

/-- R104: the last two bytes of a frame, as a number, are compared with the checksum of the bytes before. -/
theorem frameOpen_valid {p : Bytes} {lo hi : Byte} (h : lo.toNat + 256 * hi.toNat = checksumNat p) :
    frameOpen (p ++ [lo, hi]) = .ok p := by
  have hsum : csum p = le16 lo hi := csum_eq_iff_checksumNat.mpr (by rw [le16_toNat, h])
  rw [frameOpen_append, if_pos hsum]

/-- R106 (b): the checksum completes the word sum, where it starts a word of its own. -/
theorem totalNat_frameSeal {d : Bytes} (h : d.length % 2 = 0) : totalNat (frameSeal d) % 0x10000 = 0xFFFF := by
  rw [frameSeal, totalNat_append h, totalNat_le16Bytes, csum_toNat, checksumNat]
  omega

theorem csum_flatMap_perm {ws ws' : List (Byte × Byte)} (h : ws.Perm ws') :
    csum (ws.flatMap fun w => [w.1, w.2]) = csum (ws'.flatMap fun w => [w.1, w.2]) := by
  rw [csum_eq_csum_iff, totalNat_flatMap, totalNat_flatMap, (h.map _).sum_eq]

/-- Exchanging the bytes of a word changes the word sum by 255 times their difference, which is less than 2^16. -/
theorem csum_swap_ne {before : Bytes} (h : before.length % 2 = 0) (after : Bytes) {a b : Byte} (hab : a ≠ b) :
    csum (before ++ [a, b] ++ after) ≠ csum (before ++ [b, a] ++ after) := by
  have hne : a.toNat ≠ b.toNat := fun heq => hab (BitVec.eq_of_toNat_eq heq)
  have htotal (x y : Byte) : totalNat (before ++ [x, y] ++ after) =
      totalNat before + (x.toNat + 256 * y.toNat + totalNat after) := by
    rw [List.append_assoc, totalNat_append h, List.cons_append, List.cons_append, List.nil_append, totalNat_cons_cons]
  rw [Ne, csum_eq_csum_iff, htotal, htotal]
  have := a.isLt
  have := b.isLt
  omega

/-! ## What the checksum instructions answer with -/

theorem answers_csum (d : Bytes) (s : State) : answers (.csum d) s (.value (.word (csum d))) := rfl

theorem answers_csumVerify (d : Bytes) (c : U16) (s : State) :
    answers (.csumVerify d c) s (.value (.flag (decide (csum d = c)))) := rfl

theorem answers_frameSeal (d : Bytes) (s : State) : answers (.frameSeal d) s (.value (.bytes (frameSeal d))) := rfl

theorem answers_frameOpen {f : Bytes} {x : Except ErrorKind Bytes} (h : frameOpen f = x) (s : State) :
    answers (.frameOpen f) s (bytesResult x) := h ▸ rfl

/-! ## The statements -/

/-- Settles O13: each answer of the model, with the checksum written as the spec's number. -/
theorem checksumResults : Obligations.ChecksumResults := by
  intro d c s
  have hword : BitVec.ofNat 16 (checksumNat d) = csum d := by rw [← csum_toNat, BitVec.ofNat_toNat, BitVec.setWidth_eq]
  have hflag : decide (c.toNat = checksumNat d) = decide (csum d = c) := decide_eq_decide.mpr csum_eq_iff_checksumNat.symm
  have hseal : d ++ [BitVec.ofNat 8 (checksumNat d % 256), BitVec.ofNat 8 (checksumNat d / 256)] = frameSeal d := by
    rw [frameSeal, le16Bytes_eq_ofNat, csum_toNat]
  rw [hword, hflag, hseal]
  exact ⟨fun _ => rfl, fun _ => rfl, fun _ => rfl, answers_csum d s, answers_csumVerify d c s, answers_frameSeal d s⟩

/-- Settles O14: a short frame, then the two outcomes of the comparison. -/
theorem frameOpenResult : Obligations.FrameOpenResult := by
  refine ⟨fun _ _ => rfl, fun f s h => answers_frameOpen (frameOpen_short h) s, fun p lo hi s => ?_⟩
  split
  · next h => exact answers_frameOpen (frameOpen_valid h) s
  · next h => exact answers_frameOpen (frameOpen_checksumInvalid h) s

/-- Settles O15; the odd sequence of (c) is the one byte 01, whose sealed form 01 FE FF sums to 0xFF00. -/
theorem checksumLaws : Obligations.ChecksumLaws := by
  refine ⟨fun d s => ?_, fun d h => totalNat_frameSeal h, [0x01], by decide⟩
  have hanswer := answers_csumVerify d (csum d) s
  rwa [decide_eq_true rfl] at hanswer

/-- Settles O16: the word sum does not see the order of the words, but weighs the bytes of a word differently. -/
theorem checksumWordOrder : Obligations.ChecksumWordOrder :=
  ⟨fun _ _ h => csum_flatMap_perm h, fun _ after _ _ h hab => csum_swap_ne h after hab⟩

end Sys2Proof.Machine
end

section
/-! Proofs about the Packet Codec (41_packet_codec.md R120 to R145). Byte 0 as a number (30_encoding.md R72, R73) ties the
decoders' fields and the encoders' `(flag << n) | seq` to the spec's arithmetic; that an encoder writes the header's layout with
the reserved bits 0 is what both round trips turn on. -/

namespace Sys2Proof.Machine

open Sys2Proof.Spec

/-! ## Byte 0 as a number (R72, R73, R94) -/

theorem seqField_eq_ofNat (b0 : Byte) : seqField b0 = BitVec.ofNat 5 (b0.toNat % 32) := by
  apply BitVec.eq_of_toNat_eq
  simp [seqField]

theorem syncField_eq_decide (b0 : Byte) : syncField b0 = decide (128 ≤ b0.toNat) := by
  have hbit : syncField b0 = true ↔ b0.toNat / 2 ^ 7 % 2 = 1 := getLsbD_iff b0 7
  have := b0.isLt
  rw [Bool.eq_iff_iff, hbit, decide_eq_true_iff]
  omega

theorem resendField_eq_decide (b0 : Byte) : resendField b0 = decide (64 ≤ b0.toNat % 128) := by
  have hbit : resendField b0 = true ↔ b0.toNat / 2 ^ 6 % 2 = 1 := getLsbD_iff b0 6
  rw [Bool.eq_iff_iff, hbit, decide_eq_true_iff]
  omega

theorem commandByte0_toNat (sync : Bool) (rsv : BitVec 2) (seq : BitVec 5) :
    (commandByte0 sync rsv seq).toNat = 128 * sync.toNat + 32 * rsv.toNat + seq.toNat := by
  rw [commandByte0, toNat_append_eq, toNat_append_eq, BitVec.toNat_ofBool]
  omega

theorem statusByte0_toNat (r7 resend r5 : Bool) (seq : BitVec 5) :
    (statusByte0 r7 resend r5 seq).toNat = 128 * r7.toNat + 64 * resend.toNat + 32 * r5.toNat + seq.toNat := by
  rw [statusByte0, toNat_append_eq, toNat_append_eq, toNat_append_eq, BitVec.toNat_ofBool, BitVec.toNat_ofBool,
    BitVec.toNat_ofBool]
  omega

/-- The flag and a sequence number below it share no bit, so their "or" is their sum. -/
theorem flagShifted_toNat {n : Nat} {seq : Byte} (hn : n < 8) (hseq : seq.toNat < 2 ^ n) (flag : Bool) :
    (flagShifted flag n seq).toNat = 2 ^ n * flag.toNat + seq.toNat := by
  have hpow : 2 ^ n < 256 := Nat.pow_lt_pow_right (by decide) hn
  cases flag with
  | false => simp [flagShifted]
  | true =>
    have hor : 2 ^ n ||| seq.toNat = 2 ^ n + seq.toNat := by
      simpa using (Nat.two_pow_add_eq_or_of_lt hseq 1).symm
    simp [flagShifted, Nat.shiftLeft_eq, Nat.mod_eq_of_lt hpow, hor]

theorem flagShifted_eq_ofNat {n : Nat} {seq : Byte} (hn : n < 8) (hseq : seq.toNat < 2 ^ n) (flag : Bool) :
    flagShifted flag n seq = BitVec.ofNat 8 ((if flag then 2 ^ n else 0) + seq.toNat) := by
  have hsum : (if flag then 2 ^ n else 0) + seq.toNat = (flagShifted flag n seq).toNat := by
    rw [flagShifted_toNat hn hseq]
    cases flag <;> simp
  rw [hsum, BitVec.ofNat_toNat, BitVec.setWidth_eq]

theorem seq_setWidth_toNat (seq : BitVec 5) : (seq.setWidth 8).toNat = seq.toNat :=
  BitVec.toNat_setWidth_of_le (by decide)

/-- CMD_ENCODE's byte 0 is the header's, with bits 6:5 written 0 (R130). -/
theorem flagShifted_seven (sync : Bool) (seq : BitVec 5) :
    flagShifted sync 7 (seq.setWidth 8) = commandByte0 sync 0 seq := by
  have hseq := seq_setWidth_toNat seq
  apply BitVec.eq_of_toNat_eq
  rw [flagShifted_toNat (by decide) (by omega), commandByte0_toNat, hseq]
  rfl

/-- STS_ENCODE's byte 0 is the header's, with bits 7 and 5 written 0 (R141). -/
theorem flagShifted_six (resend : Bool) (seq : BitVec 5) :
    flagShifted resend 6 (seq.setWidth 8) = statusByte0 false resend false seq := by
  have hseq := seq_setWidth_toNat seq
  apply BitVec.eq_of_toNat_eq
  rw [flagShifted_toNat (by decide) (by omega), statusByte0_toNat, hseq]
  simp

theorem commandByte0_clearReserved (b0 : Byte) : commandByte0 (syncField b0) 0 (seqField b0) = b0 &&& 0x9F := by
  revert b0
  decide

theorem statusByte0_clearReserved (b0 : Byte) : statusByte0 false (resendField b0) false (seqField b0) = b0 &&& 0x5F := by
  revert b0
  decide

/-! ## The decoders' error cases (R123, R137) -/

theorem cmdDecode_short {b : Bytes} (h : b.length < 2) : cmdDecode b = .error .packetTooShort := by
  rcases cmdDecode_cases b with ⟨-, hdecode⟩ | ⟨b0, b1, data, rfl, -⟩
  · exact hdecode
  · simp at h

theorem stsDecode_short {b : Bytes} (h : b.length < 2) : stsDecode b = .error .packetTooShort := by
  rcases stsDecode_cases b with ⟨-, hdecode⟩ | ⟨b0, b1, data, rfl, -⟩
  · exact hdecode
  · simp at h

theorem cmdDecode_noCode {b1 : Byte} (h : b1 = 0x00 ∨ 6 ≤ b1.toNat) (b0 : Byte) (data : Bytes) :
    cmdDecode (b0 :: b1 :: data) = .error .commandNotSupported := by
  simp [cmdDecode, CommandCode.ofByte_none.mpr h]

theorem stsDecode_noCode {b1 : Byte} (h : b1 = 0x00 ∨ 6 ≤ b1.toNat) (b0 : Byte) (data : Bytes) :
    stsDecode (b0 :: b1 :: data) = .error .statusInvalid := by
  simp [stsDecode, StatusCode.ofByte_none.mpr h]

/-! ## The encoders' cases, in the order of their checks (R130, R141) -/

theorem exists_commandCode {b : Byte} (h1 : 1 ≤ b.toNat) (h5 : b.toNat ≤ 5) : ∃ c : CommandCode, b = c.code := by
  cases h : CommandCode.ofByte b with
  | some c => exact ⟨c, CommandCode.ofByte_some h⟩
  | none =>
    rcases CommandCode.ofByte_none.mp h with rfl | h6
    · simp at h1
    · omega

theorem exists_statusCode {b : Byte} (h1 : 1 ≤ b.toNat) (h5 : b.toNat ≤ 5) : ∃ c : StatusCode, b = c.code := by
  cases h : StatusCode.ofByte b with
  | some c => exact ⟨c, StatusCode.ofByte_some h⟩
  | none =>
    rcases StatusCode.ofByte_none.mp h with rfl | h6
    · simp at h1
    · omega

section Encoders

variable {seq b1 : Byte}

theorem cmdEncode_seqOut (h : 32 ≤ seq.toNat) (sync : Bool) (cmd : Byte) (data : Bytes) :
    cmdEncode seq sync cmd data = .error .sequenceNumberOutOfRange :=
  if_pos h

theorem cmdEncode_noCode (h : seq.toNat ≤ 31) (hcmd : b1 = 0x00 ∨ 6 ≤ b1.toNat) (sync : Bool) (data : Bytes) :
    cmdEncode seq sync b1 data = .error .commandNotSupported := by
  simp [cmdEncode, Nat.not_lt.mpr h, CommandCode.ofByte_none.mpr hcmd]

theorem cmdEncode_code (h : seq.toNat ≤ 31) (sync : Bool) (c : CommandCode) (data : Bytes) :
    cmdEncode seq sync c.code data = .ok (flagShifted sync 7 seq :: c.code :: data) := by
  simp [cmdEncode, Nat.not_lt.mpr h]

theorem stsEncode_seqOut (h : 32 ≤ seq.toNat) (resend : Bool) (status : Byte) (data : Bytes) :
    stsEncode seq resend status data = .error .sequenceNumberOutOfRange :=
  if_pos h

theorem stsEncode_noCode (h : seq.toNat ≤ 31) (hstatus : b1 = 0x00 ∨ 6 ≤ b1.toNat) (resend : Bool) (data : Bytes) :
    stsEncode seq resend b1 data = .error .statusInvalid := by
  simp [stsEncode, Nat.not_lt.mpr h, StatusCode.ofByte_none.mpr hstatus]

theorem stsEncode_code (h : seq.toNat ≤ 31) (resend : Bool) (c : StatusCode) (data : Bytes) :
    stsEncode seq resend c.code data = .ok (flagShifted resend 6 seq :: c.code :: data) := by
  simp [stsEncode, Nat.not_lt.mpr h]

end Encoders

/-- A Command packet value is encoded as its header, reserved bits 0, and its data. -/
theorem cmdEncode_packet (p : CommandPacket) :
    cmdEncode (p.seq.setWidth 8) p.sync p.cmd.code p.data =
      .ok (commandByte0 p.sync 0 p.seq :: p.cmd.code :: p.data) := by
  have hseq := seq_setWidth_toNat p.seq
  rw [cmdEncode_code (by omega), flagShifted_seven]

/-- A Status packet value is encoded as its header, reserved bits 0, and its data. -/
theorem stsEncode_packet (p : StatusPacket) :
    stsEncode (p.seq.setWidth 8) p.resend p.status.code p.data =
      .ok (statusByte0 false p.resend false p.seq :: p.status.code :: p.data) := by
  have hseq := seq_setWidth_toNat p.seq
  rw [stsEncode_code (by omega), flagShifted_six]

/-! ## What the packet instructions answer with -/

section Answers

variable {seq code : Byte} {flag : Bool} {b data : Bytes}

theorem answers_cmdDecode_of {x : Except ErrorKind CommandPacket} (h : cmdDecode b = x) (s : State) :
    answers (.cmdDecode b) s (cmdResult x .none) := h ▸ rfl

theorem answers_stsDecode_of {x : Except ErrorKind StatusPacket} (h : stsDecode b = x) (s : State) :
    answers (.stsDecode b) s (stsResult x .none) := h ▸ rfl

theorem answers_cmdEncode_of {x : Except ErrorKind Bytes} (h : cmdEncode seq flag code data = x) (s : State) :
    answers (.cmdEncode seq flag code data) s (bytesResult x) := h ▸ rfl

theorem answers_stsEncode_of {x : Except ErrorKind Bytes} (h : stsEncode seq flag code data = x) (s : State) :
    answers (.stsEncode seq flag code data) s (bytesResult x) := h ▸ rfl

theorem answers_cmdDecode_code (b0 : Byte) (c : CommandCode) (data : Bytes) (s : State) :
    answers (.cmdDecode (b0 :: c.code :: data)) s (.cmd ⟨seqField b0, syncField b0, c, data⟩) :=
  answers_cmdDecode_of (cmdDecode_code b0 c data) s

theorem answers_stsDecode_code (b0 : Byte) (c : StatusCode) (data : Bytes) (s : State) :
    answers (.stsDecode (b0 :: c.code :: data)) s (.sts ⟨seqField b0, resendField b0, c, data⟩) :=
  answers_stsDecode_of (stsDecode_code b0 c data) s

theorem answers_cmdEncode_packet (p : CommandPacket) (s : State) :
    answers (.cmdEncode (p.seq.setWidth 8) p.sync p.cmd.code p.data) s
      (.value (.bytes (commandByte0 p.sync 0 p.seq :: p.cmd.code :: p.data))) :=
  answers_cmdEncode_of (cmdEncode_packet p) s

theorem answers_stsEncode_packet (p : StatusPacket) (s : State) :
    answers (.stsEncode (p.seq.setWidth 8) p.resend p.status.code p.data) s
      (.value (.bytes (statusByte0 false p.resend false p.seq :: p.status.code :: p.data))) :=
  answers_stsEncode_of (stsEncode_packet p) s

end Answers

/-! ## The statements -/

/-- Settles O21: the encoders write the header's layout with the reserved bits 0; the decoders read back the fields of that
layout, and putting the fields of a byte into it clears the reserved bits. -/
theorem packetRoundTrip : Obligations.PacketRoundTrip := by
  refine ⟨fun p s => ⟨_, answers_cmdEncode_packet p s, ?commandBack⟩,
    fun p s => ⟨_, answers_stsEncode_packet p s, ?statusBack⟩,
    fun b0 c data s => ⟨_, answers_cmdDecode_code b0 c data s, ?commandAgain⟩,
    fun b0 c data s => ⟨_, answers_stsDecode_code b0 c data s, ?statusAgain⟩⟩
  case commandBack => simpa using answers_cmdDecode_code (commandByte0 p.sync 0 p.seq) p.cmd p.data s
  case statusBack => simpa using answers_stsDecode_code (statusByte0 false p.resend false p.seq) p.status p.data s
  case commandAgain =>
    rw [← commandByte0_clearReserved]
    exact answers_cmdEncode_packet _ s
  case statusAgain =>
    rw [← statusByte0_clearReserved]
    exact answers_stsEncode_packet _ s

/-- Settles O17: the three cases of the decoder, the fields of byte 0 as the spec's numbers. -/
theorem cmdDecodeResult : Obligations.CmdDecodeResult := by
  refine ⟨fun _ _ => rfl, fun _ s h => answers_cmdDecode_of (cmdDecode_short h) s, fun b0 c data s => ?known,
    fun b0 _ data s h => answers_cmdDecode_of (cmdDecode_noCode h b0 data) s⟩
  case known =>
    rw [← seqField_eq_ofNat, ← syncField_eq_decide]
    exact answers_cmdDecode_code b0 c data s

/-- Settles O18: the three cases of the decoder, the fields of byte 0 as the spec's numbers. -/
theorem stsDecodeResult : Obligations.StsDecodeResult := by
  refine ⟨fun _ _ => rfl, fun _ s h => answers_stsDecode_of (stsDecode_short h) s, fun b0 c data s => ?known,
    fun b0 _ data s h => answers_stsDecode_of (stsDecode_noCode h b0 data) s⟩
  case known =>
    rw [← seqField_eq_ofNat, ← resendField_eq_decide]
    exact answers_stsDecode_code b0 c data s

/-- Settles O19: the two checks in their order, then byte 0 as a sum. -/
theorem cmdEncodeResult : Obligations.CmdEncodeResult := by
  refine ⟨fun _ _ _ _ _ => rfl, fun _ cmd sync data s h => answers_cmdEncode_of (cmdEncode_seqOut h sync cmd data) s,
    fun _ _ sync data s h hcmd => answers_cmdEncode_of (cmdEncode_noCode h hcmd sync data) s,
    fun seq cmd sync data s h h1 h5 => ?known⟩
  case known =>
    obtain ⟨c, rfl⟩ := exists_commandCode h1 h5
    have hbyte0 := flagShifted_eq_ofNat (n := 7) (by decide) (by omega : seq.toNat < 2 ^ 7) sync
    exact hbyte0 ▸ answers_cmdEncode_of (cmdEncode_code h sync c data) s

/-- Settles O20: the two checks in their order, then byte 0 as a sum. -/
theorem stsEncodeResult : Obligations.StsEncodeResult := by
  refine ⟨fun _ _ _ _ _ => rfl, fun _ status resend data s h => answers_stsEncode_of (stsEncode_seqOut h resend status data) s,
    fun _ _ resend data s h hstatus => answers_stsEncode_of (stsEncode_noCode h hstatus resend data) s,
    fun seq status resend data s h h1 h5 => ?known⟩
  case known =>
    obtain ⟨c, rfl⟩ := exists_statusCode h1 h5
    have hbyte0 := flagShifted_eq_ofNat (n := 6) (by decide) (by omega : seq.toNat < 2 ^ 6) resend
    exact hbyte0 ▸ answers_stsEncode_of (stsEncode_code h resend c data) s

end Sys2Proof.Machine
end

section
/-! Proofs about CI_ENCODE and its way back through CI_DECODE (42_client_info.md R160, R161, R168): the bytes written are a stream
of legal records, and the summary of those records holds the fields of the record encoded. -/

namespace Sys2Proof.Machine

open Sys2Proof.Spec

/-! ## A COMMAND_TIMEOUTS value written from its triplets (R81, R156) -/

/-- The value bytes of a list of triplets. -/
def tripletBytes (ts : List (Byte × U16)) : Bytes := ts.flatMap fun q => q.1 :: le16Bytes q.2

theorem tripletBytes_cons (c : Byte) (t : U16) (ts : List (Byte × U16)) :
    tripletBytes ((c, t) :: ts) = c :: t.extractLsb' 0 8 :: t.extractLsb' 8 8 :: tripletBytes ts := rfl

theorem triplets_tripletBytes (ts : List (Byte × U16)) : triplets (tripletBytes ts) = ts := by
  induction ts with
  | nil => rfl
  | cons q ts ih => rw [tripletBytes_cons, triplets_cons, le16_bytes, ih]

theorem tripletBytes_length (ts : List (Byte × U16)) : (tripletBytes ts).length = 3 * ts.length := by
  induction ts with
  | nil => rfl
  | cons q ts ih =>
    obtain ⟨c, t⟩ := q
    simp only [tripletBytes_cons, List.length_cons, ih]
    omega

theorem tripletCodesLegal_tripletBytes {ts : List (Byte × U16)} (h : ∀ q ∈ ts, q.1.toNat ≤ 5) :
    tripletCodesLegal (tripletBytes ts) := by
  induction ts with
  | nil => exact tripletCodesLegal_nil
  | cons q ts ih =>
    obtain ⟨hq, hts⟩ := List.forall_mem_cons.mp h
    exact tripletCodesLegal_cons.mpr ⟨hq, ih hts⟩

/-! ## The triplets CI_ENCODE writes, read back (R158, R160) -/

/-- The default first, then the overrides in stored order (R160). -/
def encodedTriplets (ci : ClientInfo) : List (Byte × U16) := (0x00, ci.defaultTimeout) :: ci.overrides.map wireOverride

theorem upsert_of_not_mem {o : List (CommandCode × U16)} {c : CommandCode} (h : c ∉ o.map Prod.fst) (t : U16) :
    upsert o c t = o ++ [(c, t)] := by
  induction o with
  | nil => rfl
  | cons p o ih =>
    obtain ⟨hp, ho⟩ := List.ne_and_not_mem_of_not_mem_cons h
    rw [upsert, if_neg (Ne.symm hp), ih ho, List.cons_append]

theorem CodesDistinct.of_append_singleton {o : List (CommandCode × U16)} {p : CommandCode × U16}
    (h : CodesDistinct (o ++ [p])) : CodesDistinct o ∧ p.1 ∉ o.map Prod.fst := by
  rw [CodesDistinct, List.map_append, List.map_singleton] at h
  exact ⟨h.of_append_left, fun hp => List.disjoint_of_nodup_append h hp (List.mem_singleton_self _)⟩

theorem overridesOf_encoded (t : U16) {o : List (CommandCode × U16)} (h : CodesDistinct o) :
    overridesOf ((0x00, t) :: o.map wireOverride) = o := by
  induction o using List.reverseRecOn with
  | nil => rfl
  | append_singleton o p ih =>
    obtain ⟨ho, hp⟩ := h.of_append_singleton
    rw [List.map_append, ← List.cons_append, List.map_singleton, overridesOf_append, ih ho, wireOverride,
      upsertTriplet_of_some (CommandCode.ofByte_code _), upsert_of_not_mem hp]

theorem defaultOf_encoded (t : U16) (o : List (CommandCode × U16)) :
    defaultOf ((0x00, t) :: o.map wireOverride) = some t := by
  induction o using List.reverseRecOn with
  | nil => rfl
  | append_singleton o p ih =>
    rw [List.map_append, ← List.cons_append, List.map_singleton, wireOverride,
      defaultOf_append_ne (commandCode_ne_zero p.1), ih]

theorem commandCode_toNat_le (c : CommandCode) : c.code.toNat ≤ 5 := by
  cases c <;> decide

theorem encodedTriplets_codes (ci : ClientInfo) : ∀ q ∈ encodedTriplets ci, q.1.toNat ≤ 5 :=
  List.forall_mem_cons.mpr ⟨by simp, List.forall_mem_map.mpr fun p _ => commandCode_toNat_le p.1⟩

theorem mem_commandCodes (c : CommandCode) : c ∈ CommandCode.all := by
  cases c <;> decide

/-- There are five commands (R75). -/
theorem CodesDistinct.length_le {o : List (CommandCode × U16)} (h : CodesDistinct o) : o.length ≤ 5 := by
  have hsub : (o.map Prod.fst).Subperm CommandCode.all := List.subperm_of_subset h fun c _ => mem_commandCodes c
  simpa [CommandCode.all] using hsub.length_le

/-! ## The records CI_ENCODE writes (R160, R161) -/

/-- A PROTOCOL_VERSION value, 3 or 4 bytes. -/
def versionBytes (ver : Version) : Bytes := [ver.major, ver.minor, ver.patch] ++ ver.pre.toList

/-- A BUFFER_INFO value. -/
def bufferBytes (ci : ClientInfo) : Bytes := le16Bytes ci.bufferSize ++ [ci.bufferCount]

/-- The records of a ClientInfo value, in the order of R160. -/
def encodedRecords (p5 : Byte) (ci : ClientInfo) : List (Byte × Bytes) :=
  [(0x02, bufferBytes ci), (0x01, versionBytes ci.version), (0x03, tripletBytes (encodedTriplets ci))] ++
    ci.itd.toList.map fun n => (p5, le32Bytes n)

theorem tripletBytes_encodedTriplets (ci : ClientInfo) :
    tripletBytes (encodedTriplets ci) =
      [0x00] ++ le16Bytes ci.defaultTimeout ++ ci.overrides.flatMap fun p => p.1.code :: le16Bytes p.2 := by
  rw [encodedTriplets, tripletBytes_cons, tripletBytes, List.flatMap_map]
  rfl

theorem ciVersionRecord_eq_record (ver : Version) : ciVersionRecord ver = record (0x01, versionBytes ver) := by
  obtain ⟨major, minor, patch, _ | pre⟩ := ver <;> rfl

/-- The length byte of CI_ENCODE's COMMAND_TIMEOUTS record is the length of its value. -/
theorem record_encodedTriplets (ci : ClientInfo) :
    record (0x03, tripletBytes (encodedTriplets ci)) =
      [timeoutsType, BitVec.ofNat 8 (3 * (1 + ci.overrides.length)), 0x00] ++ le16Bytes ci.defaultTimeout ++
        ci.overrides.flatMap fun p => p.1.code :: le16Bytes p.2 := by
  have hlen : (tripletBytes (encodedTriplets ci)).length = 3 * (1 + ci.overrides.length) := by
    rw [tripletBytes_length, encodedTriplets, List.length_cons, List.length_map, Nat.add_comm]
  rw [record, hlen, tripletBytes_encodedTriplets]
  rfl

theorem ciEncode_eq_stream (p5 : Byte) (ci : ClientInfo) : ciEncode p5 ci = stream (encodedRecords p5 ci) := by
  have hthree : stream [(0x02, bufferBytes ci), (0x01, versionBytes ci.version), (0x03, tripletBytes (encodedTriplets ci))] =
      record (0x02, bufferBytes ci) ++ ciVersionRecord ci.version ++ record (0x03, tripletBytes (encodedTriplets ci)) := by
    simp [stream, ciVersionRecord_eq_record]
  rw [encodedRecords, stream, List.flatMap_append, ← stream, ← stream, hthree, record_encodedTriplets, ciEncode]
  cases ci.itd <;> simp only [List.append_assoc] <;> rfl

theorem encodedRecords_legal (p5 : Byte) {ci : ClientInfo} (h : CodesDistinct ci.overrides) :
    ∀ p ∈ encodedRecords p5 ci, recordLegal p5 p := by
  have hver : recordLegal p5 (0x01, versionBytes ci.version) := by
    refine .inl ⟨rfl, ?_⟩
    cases hpre : ci.version.pre <;> simp [versionBytes, hpre]
  have hlen : (tripletBytes (encodedTriplets ci)).length = 3 * (ci.overrides.length + 1) := by
    rw [tripletBytes_length, encodedTriplets, List.length_cons, List.length_map]
  have htim : recordLegal p5 (0x03, tripletBytes (encodedTriplets ci)) := by
    have hle := h.length_le
    exact recordLegal_timeouts (by omega) (by omega) (tripletCodesLegal_tripletBytes (encodedTriplets_codes ci))
  refine List.forall_mem_append.mpr ⟨forall_recordLegal (.inr (.inl ⟨rfl, rfl⟩)) hver htim, ?_⟩
  exact List.forall_mem_map.mpr fun n _ => .inr (.inr (.inr ⟨rfl, rfl⟩))

/-! ## The summary of those records is the record encoded -/

theorem versionOf_versionBytes (ver : Version) : versionOf (versionBytes ver) = ver := by
  obtain ⟨major, minor, patch, _ | pre⟩ := ver <;> rfl

theorem bufferOf_bufferBytes (ci : ClientInfo) : bufferOf (bufferBytes ci) = (ci.bufferSize, ci.bufferCount) :=
  Prod.ext (le16_bytes ci.bufferSize) rfl

theorem delayOf_le32Bytes (n : U32) : delayOf (le32Bytes n) = n := le32_bytes n

theorem summary_encodedRecords {p5 : Byte} (hp5 : itdTypeLegal p5 = true) {ci : ClientInfo}
    (h : CodesDistinct ci.overrides) :
    summary p5 (encodedRecords p5 ci) =
      ⟨some ci.version, some (ci.bufferSize, ci.bufferCount), some ci.defaultTimeout, ci.overrides, ci.itd⟩ := by
  have hthree : summary p5
      ([(0x02, bufferBytes ci), (0x01, versionBytes ci.version), (0x03, tripletBytes (encodedTriplets ci))]) =
      ⟨some ci.version, some (ci.bufferSize, ci.bufferCount), some ci.defaultTimeout, ci.overrides, none⟩ := by
    change summary p5 ((([] ++ [(0x02, bufferBytes ci)]) ++ [(0x01, versionBytes ci.version)]) ++
      [(0x03, tripletBytes (encodedTriplets ci))]) = _
    rw [summary_append_timeouts hp5, summary_append_version hp5, summary_append_buffer hp5, versionOf_versionBytes,
      bufferOf_bufferBytes, triplets_tripletBytes]
    simp only [streamTriplets_append_other _ (show (0x01 : Byte) ≠ 0x03 by decide),
      streamTriplets_append_other _ (show (0x02 : Byte) ≠ 0x03 by decide)]
    change CiFields.mk _ _ (defaultOf (encodedTriplets ci)) (overridesOf (encodedTriplets ci)) none = _
    rw [encodedTriplets, defaultOf_encoded, overridesOf_encoded _ h]
  cases hitd : ci.itd with
  | none => rwa [encodedRecords, hitd, Option.toList_none, List.map_nil, List.append_nil]
  | some n =>
    rw [encodedRecords, hitd, Option.toList_some, List.map_singleton, summary_append_delay hp5, hthree, delayOf_le32Bytes]

theorem ciDecode_ciEncode {p5 : Byte} (hp5 : itdTypeLegal p5 = true) {ci : ClientInfo} (h : CodesDistinct ci.overrides) :
    ciDecode p5 (ciEncode p5 ci) = .ok ci := by
  rw [ciEncode_eq_stream, ciDecode_stream hp5 (encodedRecords_legal p5 h), summary_encodedRecords hp5 h, ciFinish]

/-! ## What CI_ENCODE answers with -/

theorem clientInfo_wf_iff {ci : ClientInfo} : ci.wf = true ↔ CodesDistinct ci.overrides := decide_eq_true_iff

theorem answers_ciEncode {ci : ClientInfo} (h : CodesDistinct ci.overrides) (s : State) :
    answers (.ciEncode ci) s (.value (.bytes (ciEncode s.itdTypeCode ci))) :=
  if_pos (clientInfo_wf_iff.mpr h)

theorem exec_ciEncode_repeated {ci : ClientInfo} (h : ¬ CodesDistinct ci.overrides) (s : State) :
    exec (.ciEncode ci) s = .refused .illFormedRecord :=
  if_neg (clientInfo_wf_iff.not.mpr h)

/-! ## The statements -/

/-- Settles O30: CI_ENCODE writes legal records whose summary is the record. -/
theorem ciRoundTrip : Obligations.CiRoundTrip :=
  fun _ s hp5 hwf => ⟨_, answers_ciEncode hwf s, answers_ciDecode_ok (ciDecode_ciEncode hp5 hwf)⟩

/-- Settles O29: the bytes are the stream of the records of R160. -/
theorem ciEncodeResult : Obligations.CiEncodeResult := by
  refine fun ci s => ⟨fun _ => rfl, fun hwf => ?_, fun hrep => exec_ciEncode_repeated hrep s⟩
  have hanswer := answers_ciEncode hwf s
  rwa [ciEncode_eq_stream, encodedRecords, tripletBytes_encodedTriplets] at hanswer

end Sys2Proof.Machine
end

section
/-! Proofs about CI_SET_DEFAULT_TIMEOUTS (42_client_info.md R162): the fold over the five commands appends those that are
missing, so afterwards none is. -/

namespace Sys2Proof.Machine

open Sys2Proof.Spec

/-- The commands without an override, in command-code order. -/
def missingCommands (o : List (CommandCode × U16)) : List CommandCode :=
  CommandCode.all.filter fun c => decide (c ∉ o.map Prod.fst)

theorem mem_missingCommands {o : List (CommandCode × U16)} {c : CommandCode} :
    c ∈ missingCommands o ↔ c ∉ o.map Prod.fst := by
  simp only [missingCommands, List.mem_filter, mem_commandCodes, true_and, decide_eq_true_eq]

/-- The fold of R162 over any list of commands that repeats none: what it appends on the way has no later command. -/
theorem fill_eq_append (t : U16) {cs : List CommandCode} (hcs : cs.Nodup) (o : List (CommandCode × U16)) :
    cs.foldl (fun o c => if c ∈ o.map Prod.fst then o else o ++ [(c, t)]) o =
      o ++ (cs.filter fun c => decide (c ∉ o.map Prod.fst)).map fun c => (c, t) := by
  induction cs generalizing o with
  | nil => simp
  | cons c cs ih =>
    obtain ⟨hc, hcs⟩ := List.nodup_cons.mp hcs
    rw [List.foldl_cons, ih hcs]
    by_cases hmem : c ∈ o.map Prod.fst
    · rw [if_pos hmem, List.filter_cons_of_neg (by simpa using hmem)]
    · have hlater : (cs.filter fun x => decide (x ∉ (o ++ [(c, t)]).map Prod.fst)) =
          cs.filter fun x => decide (x ∉ o.map Prod.fst) := by
        refine List.filter_congr fun x hx => decide_eq_decide.mpr (not_congr ?_)
        have hne : x ≠ c := fun h => hc (h ▸ hx)
        simp [hne]
      rw [if_neg hmem, List.filter_cons_of_pos (by simpa using hmem), hlater, List.append_assoc, List.map_cons]
      rfl

theorem fillOverrides_eq_append (t : U16) (o : List (CommandCode × U16)) :
    fillOverrides t o = o ++ (missingCommands o).map fun c => (c, t) :=
  fill_eq_append t (by decide) o

theorem fillOverrides_codes (t : U16) (o : List (CommandCode × U16)) :
    (fillOverrides t o).map Prod.fst = o.map Prod.fst ++ missingCommands o := by
  rw [fillOverrides_eq_append, List.map_append, List.map_map]
  exact congrArg _ (List.map_id _)

theorem mem_fillOverrides_codes (t : U16) (o : List (CommandCode × U16)) (c : CommandCode) :
    c ∈ (fillOverrides t o).map Prod.fst := by
  rw [fillOverrides_codes, List.mem_append, mem_missingCommands]
  exact em _

theorem fillOverrides_codesDistinct (t : U16) {o : List (CommandCode × U16)} (h : CodesDistinct o) :
    CodesDistinct (fillOverrides t o) := by
  rw [CodesDistinct, fillOverrides_codes]
  have hmissing : (missingCommands o).Nodup := List.Nodup.filter _ (by decide)
  exact List.Nodup.append h hmissing fun c hc hm => mem_missingCommands.mp hm hc

/-- Every command has exactly one override. -/
theorem fillOverrides_length (t : U16) {o : List (CommandCode × U16)} (h : CodesDistinct o) :
    (fillOverrides t o).length = 5 := by
  have hperm : ((fillOverrides t o).map Prod.fst).Perm CommandCode.all :=
    (List.perm_ext_iff_of_nodup (fillOverrides_codesDistinct t h) (by decide)).mpr fun c =>
      iff_of_true (mem_fillOverrides_codes t o c) (mem_commandCodes c)
  simpa [CommandCode.all] using hperm.length_eq

theorem fillOverrides_of_all {o : List (CommandCode × U16)} (h : ∀ c, c ∈ o.map Prod.fst) (t : U16) :
    fillOverrides t o = o := by
  have hnone : missingCommands o = [] := List.eq_nil_iff_forall_not_mem.mpr fun c hc => mem_missingCommands.mp hc (h c)
  rw [fillOverrides_eq_append, hnone, List.map_nil, List.append_nil]

theorem ciSetDefaultTimeouts_idempotent (ci : ClientInfo) :
    ciSetDefaultTimeouts (ciSetDefaultTimeouts ci) = ciSetDefaultTimeouts ci := by
  simp only [ciSetDefaultTimeouts, fillOverrides_of_all (mem_fillOverrides_codes _ _)]

theorem ciSetDefaultTimeouts_length {ci : ClientInfo} (h : CodesDistinct ci.overrides) :
    (ciSetDefaultTimeouts ci).overrides.length = 5 := by
  rw [ciSetDefaultTimeouts, fillOverrides_length ci.defaultTimeout h]

theorem answers_ciSetDefaultTimeouts (ci : ClientInfo) (s : State) :
    answers (.ciSetDefaultTimeouts ci) s (.value (.info (ciSetDefaultTimeouts ci))) := rfl

/-- Settles O31: the missing commands are appended, after which none is missing. -/
theorem ciSetDefaultTimeoutsResult : Obligations.CiSetDefaultTimeoutsResult := by
  refine fun ci s => ⟨fun _ => rfl, ⟨missingCommands ci.overrides, rfl, ?filled⟩,
    ciSetDefaultTimeouts_length, ?again⟩
  case filled =>
    rw [← fillOverrides_eq_append]
    exact answers_ciSetDefaultTimeouts ci s
  case again =>
    have hanswer := answers_ciSetDefaultTimeouts (ciSetDefaultTimeouts ci) s
    rwa [ciSetDefaultTimeouts_idempotent] at hanswer

end Sys2Proof.Machine
end

section
/-! Proofs about CI_DECODE as a whole (42_client_info.md R153, R159, R167): the mandatory fields, read off the summary; and that
the order of records of different types does not matter, because each type reads and writes a part of the loop variables of
its own. -/

namespace Sys2Proof.Machine

open Sys2Proof.Spec

/-! ## The mandatory fields (R153, R159) -/

theorem lastValue_eq_none_iff {l : List (Byte × Bytes)} {t : Byte} : lastValue l t = none ↔ t ∉ l.map Prod.fst := by
  refine ⟨fun h hmem => ?_, fun h => lastValue_eq_none fun p hp hpt => h (hpt ▸ List.mem_map_of_mem hp)⟩
  obtain ⟨p, hp, rfl⟩ := List.mem_map.mp hmem
  have hnone : ∀ t v, (t, v) ∈ l → t ≠ p.1 := by simpa [lastValue] using h
  exact hnone p.1 p.2 hp rfl

theorem exists_lastValue {l : List (Byte × Bytes)} {t : Byte} (h : t ∈ l.map Prod.fst) : ∃ v, lastValue l t = some v :=
  Option.ne_none_iff_exists'.mp fun hnone => lastValue_eq_none_iff.mp hnone h

/-- No triplet of a stream has code 0 when no COMMAND_TIMEOUTS value has it at a triplet's place. -/
theorem lastDefault_eq_none {l : List (Byte × Bytes)}
    (h : ∀ p ∈ l, p.1 = 0x03 → ∀ j, 3 * j < p.2.length → p.2.getD (3 * j) 0 ≠ 0x00) : lastDefault l = none := by
  have hnil : (streamTriplets l).filter (fun q => q.1 = 0x00) = [] := by
    refine List.filter_eq_nil_iff.mpr fun q hq => ?_
    obtain ⟨p, hp, hqp⟩ := List.mem_flatMap.mp hq
    obtain ⟨hpl, ht⟩ := List.mem_filter.mp hp
    obtain ⟨j, hj, rfl⟩ := List.mem_map.mp hqp
    have hj := List.mem_range.mp hj
    simpa using h p hpl (of_decide_eq_true ht) j (by omega)
  rw [lastDefault, hnil]
  rfl

/-- Settles O26: a mandatory field that no record sets is missing from the summary. -/
theorem ciDecodeMandatoryFields : Obligations.CiDecodeMandatoryFields := by
  intro s good hp5 hgood
  have hfinish {e : CiSub} (h : ciFinish (summary s.itdTypeCode good) = .error e) :
      answers (.ciDecode (stream good)) s (infoErr e) :=
    answers_ciDecode_error ((ciDecode_stream hp5 hgood).trans h)
  refine ⟨fun hver => hfinish ?version, fun hver hbuf => hfinish ?buffer, fun hver hbuf hdeft => hfinish ?default⟩
  case version => simp only [ciFinish, summary, lastValue_eq_none_iff.mpr hver, Option.map_none]
  case buffer =>
    obtain ⟨ver, hver⟩ := exists_lastValue hver
    simp only [ciFinish, summary, hver, lastValue_eq_none_iff.mpr hbuf, Option.map_some, Option.map_none]
  case default =>
    obtain ⟨ver, hver⟩ := exists_lastValue hver
    obtain ⟨buf, hbuf⟩ := exists_lastValue hbuf
    simp only [ciFinish, summary, hver, hbuf, lastDefault_eq_none hdeft, Option.map_some]

/-! ## The part of the loop variables that belongs to a record type (R154 to R157) -/

/-- The parts of the loop variables, one for each record type. -/
inductive CiPart where
  | version | buffer | timeouts | delay

/-- The part that a record of type `t` reads and writes. -/
def CiPart.ofType (t : Byte) : CiPart :=
  if t = versionType then .version
  else if t = bufferInfoType then .buffer
  else if t = timeoutsType then .timeouts
  else .delay

/-- The type byte of a part (R151). -/
def CiPart.type (p5 : Byte) : CiPart → Byte
  | .version => versionType
  | .buffer => bufferInfoType
  | .timeouts => timeoutsType
  | .delay => p5

/-- The loop variables `c` with the part `f` taken from `a`. -/
def CiFields.takePart (c : CiFields) (f : CiPart) (a : CiFields) : CiFields :=
  match f with
  | .version => { c with ver := a.ver }
  | .buffer => { c with buf := a.buf }
  | .timeouts => { c with deft := a.deft, ovr := a.ovr }
  | .delay => { c with itd := a.itd }

theorem CiPart.type_ofType {p5 t : Byte} (h : ciKnownType p5 t = true) : CiPart.type p5 (CiPart.ofType t) = t := by
  unfold CiPart.ofType
  split_ifs with hver hbuf htim
  · exact hver.symm
  · exact hbuf.symm
  · exact htim.symm
  · rcases ciKnownType_iff.mp h with ht | ht | ht | ht
    · exact absurd ht hver
    · exact absurd ht hbuf
    · exact absurd ht htim
    · exact ht.symm

theorem CiPart.ofType_ne {p5 t u : Byte} (ht : ciKnownType p5 t = true) (hu : ciKnownType p5 u = true) (h : t ≠ u) :
    CiPart.ofType t ≠ CiPart.ofType u := fun heq => h (by rw [← type_ofType ht, heq, type_ofType hu])

section TakePart

variable {f g : CiPart}

theorem CiFields.takePart_self (f : CiPart) (a : CiFields) : a.takePart f a = a := by
  cases f <;> rfl

theorem CiFields.takePart_comm (h : f ≠ g) (c a b : CiFields) :
    (c.takePart f a).takePart g b = (c.takePart g b).takePart f a := by
  cases f <;> cases g <;> simp [CiFields.takePart] at h ⊢

theorem CiFields.takePart_other (h : f ≠ g) (a b : CiFields) : a.takePart g (a.takePart f b) = a := by
  cases f <;> cases g <;> simp [CiFields.takePart] at h ⊢

end TakePart

theorem ciTriplets_takePart {v : Bytes} {a b : CiFields} (h : ciTriplets v a = .ok b) (c : CiFields) :
    ciTriplets v (c.takePart .timeouts a) = .ok (c.takePart .timeouts b) := by
  fun_induction ciTriplets v a with
  | case1 lo hi rest a ih =>
    rw [ciTriplets, if_pos rfl]
    exact ih h
  | case2 x lo hi rest a hx code hcode ih =>
    rw [ciTriplets, if_neg hx, hcode]
    exact ih h
  | case3 => cases h
  | case4 v a hshort =>
    cases h
    rw [ciTriplets]
    exact hshort

/-- A record does the same to its own part whatever the other parts are, and leaves those as they are. -/
theorem ciRecord_takePart {t : Byte} {v : Bytes} {a b : CiFields} (h : ciRecord t v a = .ok b) (c : CiFields) :
    ciRecord t v (c.takePart (.ofType t) a) = .ok (c.takePart (.ofType t) b) := by
  unfold ciRecord at h ⊢
  unfold CiPart.ofType
  split_ifs at h ⊢
  · unfold ciVersion at h ⊢
    split at h <;> cases h <;> rfl
  · unfold ciBufferInfo at h ⊢
    split at h <;> cases h
    rfl
  · unfold ciTimeouts at h ⊢
    split_ifs at h ⊢
    exact ciTriplets_takePart h c
  · unfold ciDelay at h ⊢
    split at h <;> cases h
    rfl

/-- Two records with different parts can change places. -/
theorem ciRecord_swap {t u : Byte} {v w : Bytes} {a b c : CiFields} (hne : CiPart.ofType t ≠ CiPart.ofType u)
    (ht : ciRecord t v a = .ok b) (hu : ciRecord u w b = .ok c) :
    ∃ m, ciRecord u w a = .ok m ∧ ciRecord t v m = .ok c := by
  have hb : b = a.takePart (.ofType t) b := by
    have hself := ciRecord_takePart ht a
    rw [CiFields.takePart_self, ht] at hself
    exact Except.ok.inj hself
  have hc : c = b.takePart (.ofType u) c := by
    have hself := ciRecord_takePart hu b
    rw [CiFields.takePart_self, hu] at hself
    exact Except.ok.inj hself
  refine ⟨a.takePart (.ofType u) c, ?first, ?second⟩
  case first =>
    have hkeep : a.takePart (.ofType u) b = a := by
      rw [hb]
      exact CiFields.takePart_other hne a b
    simpa only [hkeep] using ciRecord_takePart hu a
  case second =>
    have hstart : (a.takePart (.ofType u) c).takePart (.ofType t) a = a.takePart (.ofType u) c := by
      rw [← CiFields.takePart_comm hne, CiFields.takePart_self]
    have hend : (a.takePart (.ofType u) c).takePart (.ofType t) b = c := by
      rw [← CiFields.takePart_comm hne, ← hb, ← hc]
    simpa only [hstart, hend] using ciRecord_takePart ht (a.takePart (.ofType u) c)

/-! ## The loop over whole records, and its order (R152, R167) -/

/-- One turn of the loop on a whole record, legal or not. -/
def ciTurn (p5 : Byte) (a : CiFields) (p : Byte × Bytes) : Except CiSub CiFields :=
  if ciKnownType p5 p.1 then ciRecord p.1 p.2 a else .error .unknownType

section Order

variable {p5 : Byte} {p q : Byte × Bytes} {l l' : List (Byte × Bytes)} {a b c : CiFields}

theorem ciTurn_eq_ok : ciTurn p5 a p = .ok b ↔ ciKnownType p5 p.1 = true ∧ ciRecord p.1 p.2 a = .ok b := by
  unfold ciTurn
  split <;> simp [*]

theorem foldlM_ciTurn_cons : (p :: l).foldlM (ciTurn p5) a = .ok c ↔
    ∃ b, ciTurn p5 a p = .ok b ∧ l.foldlM (ciTurn p5) b = .ok c := by
  rw [List.foldlM_cons]
  cases ciTurn p5 a p with
  | ok b => simp [bind, Except.bind]
  | error e => simp [bind, Except.bind]

theorem ciTurn_swap (hne : p.1 ≠ q.1) (hp : ciTurn p5 a p = .ok b) (hq : ciTurn p5 b q = .ok c) :
    ∃ m, ciTurn p5 a q = .ok m ∧ ciTurn p5 m p = .ok c := by
  obtain ⟨hknownp, hp⟩ := ciTurn_eq_ok.mp hp
  obtain ⟨hknownq, hq⟩ := ciTurn_eq_ok.mp hq
  obtain ⟨m, hqm, hpm⟩ := ciRecord_swap (CiPart.ofType_ne hknownp hknownq hne) hp hq
  exact ⟨m, ciTurn_eq_ok.mpr ⟨hknownq, hqm⟩, ciTurn_eq_ok.mpr ⟨hknownp, hpm⟩⟩

theorem foldlM_ciTurn_perm (hperm : l.Perm l') (hdistinct : (l.map Prod.fst).Nodup)
    (h : l.foldlM (ciTurn p5) a = .ok b) : l'.foldlM (ciTurn p5) a = .ok b := by
  induction hperm generalizing a with
  | nil => exact h
  | cons p _ ih =>
    obtain ⟨m, hp, hl⟩ := foldlM_ciTurn_cons.mp h
    exact foldlM_ciTurn_cons.mpr ⟨m, hp, ih (List.nodup_cons.mp hdistinct).2 hl⟩
  | swap p q l =>
    have hne : q.1 ≠ p.1 := fun heq => (List.nodup_cons.mp hdistinct).1 (by simp [heq])
    obtain ⟨m, hq, hrest⟩ := foldlM_ciTurn_cons.mp h
    obtain ⟨m', hp, hl⟩ := foldlM_ciTurn_cons.mp hrest
    obtain ⟨n, hpn, hqn⟩ := ciTurn_swap hne hq hp
    exact foldlM_ciTurn_cons.mpr ⟨n, hpn, foldlM_ciTurn_cons.mpr ⟨m', hqn, hl⟩⟩
  | trans h₁ _ ih₁ ih₂ => exact ih₂ ((h₁.map Prod.fst).nodup_iff.mp hdistinct) (ih₁ hdistinct h)

/-- The loop on a stream of whole records takes one turn for each. -/
theorem ciLoop_stream_eq_foldlM (h : ∀ p ∈ l, p.2.length ≤ 255) (fuel : Nat) (a : CiFields) :
    ciLoop p5 (fuel + l.length) (stream l) a = l.foldlM (ciTurn p5) a := by
  induction l generalizing a with
  | nil => exact ciLoop_nil p5 fuel a
  | cons p l ih =>
    obtain ⟨hp, hl⟩ := List.forall_mem_cons.mp h
    have hstream : stream (p :: l) = p.1 :: BitVec.ofNat 8 p.2.length :: (p.2 ++ stream l) := rfl
    rw [hstream, List.length_cons, ← Nat.add_assoc, List.foldlM_cons, ciTurn]
    split
    · next hknown =>
      cases hrecord : ciRecord p.1 p.2 a with
      | ok b => exact (ciLoop_record_ok _ hknown hp hrecord).trans (ih hl b)
      | error e => exact ciLoop_record_error _ hknown hp hrecord
    · next hunknown => exact ciLoop_unknownType (ciKnownType_iff.not.mp hunknown) _ _ a

theorem ciDecode_stream_eq_ok {ci : ClientInfo} (h : ∀ p ∈ l, p.2.length ≤ 255) :
    ciDecode p5 (stream l) = .ok ci ↔ ∃ a, l.foldlM (ciTurn p5) CiFields.start = .ok a ∧ ciFinish a = .ok ci := by
  rw [ciDecode, ← Nat.sub_add_cancel (length_le_stream_length l), ciLoop_stream_eq_foldlM h]
  cases l.foldlM (ciTurn p5) CiFields.start <;> simp

end Order

theorem answers_ciDecode_ok_iff {s : State} {d : Bytes} {ci : ClientInfo} :
    answers (.ciDecode d) s (.value (.info ci)) ↔ ciDecode s.itdTypeCode d = .ok ci := by
  refine ⟨fun h => ?_, answers_ciDecode_ok⟩
  have hemit := Host.Outcome.next.inj (h.symm.trans (answers_ciDecode d s))
  have hresult := Reply.result.inj (congrArg State.reply hemit)
  cases hd : ciDecode s.itdTypeCode d with
  | ok ci' =>
    rw [hd] at hresult
    cases hresult
    rfl
  | error e =>
    rw [hd] at hresult
    cases hresult

/-- Settles O28: records of different types change places, turn by turn. -/
theorem ciDecodeOrderIndependent : Obligations.CiDecodeOrderIndependent := by
  intro s l l' ci hperm hdistinct hlen hanswer
  have hlen' : ∀ p ∈ l', p.2.length ≤ 255 := fun p hp => hlen p (hperm.mem_iff.mpr hp)
  obtain ⟨a, hloop, hfinish⟩ := (ciDecode_stream_eq_ok hlen).mp (answers_ciDecode_ok_iff.mp hanswer)
  exact answers_ciDecode_ok ((ciDecode_stream_eq_ok hlen').mpr ⟨a, foldlM_ciTurn_perm hperm hdistinct hloop, hfinish⟩)

end Sys2Proof.Machine
end

section
/-! Proofs about the inter-transaction delay value type (42_client_info.md R163 to R165): the little-endian forms as numbers. -/

namespace Sys2Proof.Machine

open Sys2Proof.Spec

theorem append_byte_toNat {n : Nat} (x : BitVec n) (b : Byte) : (x ++ b).toNat = 256 * x.toNat + b.toNat := by
  rw [BitVec.toNat_append, ← Nat.shiftLeft_add_eq_or_of_lt b.isLt, Nat.shiftLeft_eq, Nat.mul_comm]

theorem le32_eq_ofNat (b0 b1 b2 b3 : Byte) : le32 b0 b1 b2 b3 =
    BitVec.ofNat 32 (b0.toNat + 2 ^ 8 * b1.toNat + 2 ^ 16 * b2.toNat + 2 ^ 24 * b3.toNat) := by
  have hsum : (le32 b0 b1 b2 b3).toNat = b0.toNat + 2 ^ 8 * b1.toNat + 2 ^ 16 * b2.toNat + 2 ^ 24 * b3.toNat := by
    simp only [le32, append_byte_toNat]
    omega
  rw [← hsum, BitVec.ofNat_toNat, BitVec.setWidth_eq]

theorem le32Bytes_eq_ofNat (n : U32) : le32Bytes n =
    [BitVec.ofNat 8 n.toNat, BitVec.ofNat 8 (n.toNat / 2 ^ 8), BitVec.ofNat 8 (n.toNat / 2 ^ 16),
     BitVec.ofNat 8 (n.toNat / 2 ^ 24)] := by
  have hbyte (k : Nat) : n.extractLsb' k 8 = BitVec.ofNat 8 (n.toNat / 2 ^ k) := by
    rw [BitVec.extractLsb', Nat.shiftRight_eq_div_pow]
  rw [le32Bytes, hbyte, hbyte, hbyte, hbyte, Nat.pow_zero, Nat.div_one]

theorem itdFromNs_legal {n : Nat} (h : n ≤ 0xFFFFFFFF) : itdFromNs n = .ok (BitVec.ofNat 32 n) :=
  if_neg (by omega)

theorem itdFromNs_tooLarge {n : Nat} (h : 0xFFFFFFFF < n) : itdFromNs n = .error (.delayOutOfRange .tooLarge) :=
  if_pos h

theorem itdDecode_badSize {b : Bytes} (h : b.length ≠ 4) : itdDecode b = .error (.delayOutOfRange .badSize) := by
  unfold itdDecode
  split
  · exact absurd rfl h
  · rfl

theorem answers_itdFromNs {n : Nat} {x : Except ErrorKind U32} (h : itdFromNs n = x) (s : State) :
    answers (.itdFromNs n) s (delayResult x) := h ▸ rfl

theorem answers_itdDecode {b : Bytes} {x : Except ErrorKind U32} (h : itdDecode b = x) (s : State) :
    answers (.itdDecode b) s (delayResult x) := h ▸ rfl

theorem answers_itdEncode (n : U32) (s : State) : answers (.itdEncode n) s (.value (.bytes (le32Bytes n))) := rfl

/-- Settles O34: the range and size checks, and the bytes as a number. -/
theorem delayResults : Obligations.DelayResults := by
  refine ⟨fun _ _ _ => ⟨fun _ => rfl, fun _ => rfl, fun _ => rfl⟩,
    fun _ s h => answers_itdFromNs (itdFromNs_legal h) s, fun _ s h => answers_itdFromNs (itdFromNs_tooLarge h) s,
    fun _ s h => answers_itdDecode (itdDecode_badSize h) s, fun b0 b1 b2 b3 s => ?decoded, fun n s => ?encoded⟩
  case decoded =>
    rw [← le32_eq_ofNat]
    exact answers_itdDecode rfl s
  case encoded =>
    rw [← le32Bytes_eq_ofNat]
    exact answers_itdEncode n s

end Sys2Proof.Machine
end

section
/-! Proofs about the serial framer (43_serial_framer.md R205 to R208, R211): one byte in every state, then a list of bytes
fed to one framer alone, which the machine's SER_FEED follows, then the parts of a frame: bytes before it, start code, body,
end code. -/

namespace Sys2Proof.Machine

open Sys2Proof.Spec

/-! ## One byte (R205 to R208) -/

section OneByte

variable {u : SerFramer} {b : Byte}

theorem SerFramer.full_iff : u.full = true ↔ u.cap = some u.buf.length := by
  cases h : u.cap with
  | none => simp [SerFramer.full, h]
  | some n => simp [SerFramer.full, h, eq_comm]

/-- R206, R207: the start code begins a frame in IDLE and begins it again in DECODING. -/
theorem serByte_start (u : SerFramer) : serByte startCode u = ({ u with state := .decoding, buf := [] }, .none) := by
  obtain ⟨dir, cap, state, buf⟩ := u
  cases state <;> rfl

theorem serByte_idle (hs : u.state = .idle) (hb : b ≠ startCode) : serByte b u = (u, .none) := by
  simp [serByte, hs, hb]

theorem serByte_end (hs : u.state = .decoding) :
    serByte endCode u =
      ({ u with state := .idle, buf := [] }, serFrameDecode (startCode :: u.buf ++ [endCode]) u.dir) := by
  simp [serByte, hs, startCode, endCode]

theorem serByte_full (hs : u.state = .decoding) (hstart : b ≠ startCode) (hend : b ≠ endCode)
    (hfull : u.cap = some u.buf.length) : serByte b u = ({ u with state := .idle, buf := [] }, framingErr .overflow) := by
  simp [serByte, hs, hstart, hend, SerFramer.full_iff.mpr hfull, framingErr]

theorem serByte_append (hs : u.state = .decoding) (hstart : b ≠ startCode) (hend : b ≠ endCode)
    (hroom : u.cap ≠ some u.buf.length) : serByte b u = ({ u with buf := u.buf ++ [b] }, .none) := by
  simp [serByte, hs, hstart, hend, SerFramer.full_iff.not.mpr hroom]

/-- SER_BYTE runs as the framer's own step. -/
theorem exec_serByte {s : State} {k : Byte} {u' : SerFramer} {r : Result} (hu : s.serAt k = some u)
    (h : serByte b u = (u', r)) : exec (.serByte k b) s = .next ((s.setSer k u').emit (.result r)) := by
  have hstep : exec (.serByte k b) s = _ := stepSer_of_some hu
  rw [hstep, h]

end OneByte

/-- Settles O40: each state and byte by its own rule. -/
theorem serByteResult : Obligations.SerByteResult :=
  fun _ _ s _ hu => ⟨fun _ => rfl, fun hs hb => exec_serByte hu (serByte_idle hs hb), exec_serByte hu (serByte_start _),
    fun hs => ⟨_, answers_serFrameDecode rfl s, exec_serByte hu (serByte_end hs)⟩,
    fun hs hstart hend hfull => exec_serByte hu (serByte_full hs hstart hend hfull),
    fun hs hstart hend hroom => exec_serByte hu (serByte_append hs hstart hend hroom)⟩

/-! ## A list of bytes (R92) -/

/-- What a list of bytes makes of one framer, and its reply to each. -/
def serRun : Bytes → SerFramer → SerFramer × List Reply
  | [], u => (u, [])
  | b :: bs, u => ((serRun bs (serByte b u).1).1, .result (serByte b u).2 :: (serRun bs (serByte b u).1).2)

theorem serRun_nil (u : SerFramer) : serRun [] u = (u, []) := rfl

theorem serRun_cons {u u' : SerFramer} {b : Byte} {r : Result} (h : serByte b u = (u', r)) (bs : Bytes) :
    serRun (b :: bs) u = ((serRun bs u').1, .result r :: (serRun bs u').2) := by
  rw [serRun, h]

theorem serRun_append {u u' : SerFramer} {bs : Bytes} {rs : List Reply} (h : serRun bs u = (u', rs)) (cs : Bytes) :
    serRun (bs ++ cs) u = ((serRun cs u').1, rs ++ (serRun cs u').2) := by
  induction bs generalizing u rs with
  | nil =>
    cases h
    rfl
  | cons b bs ih =>
    cases h
    rw [List.cons_append, serRun, ih rfl, List.cons_append]

theorem State.setSer_self {s : State} {k : Byte} {u : SerFramer} (h : s.serAt k = some u) : s.setSer k u = s := by
  have hslot : s.ser[k.toNat]? = some (some u) := Option.join_eq_some_iff.mp h
  obtain ⟨hk, hget⟩ := List.getElem?_eq_some_iff.mp hslot
  rw [State.setSer, ← hget, List.set_getElem_self hk]

theorem State.setSer_emit_setSer (s : State) (k : Byte) (u v : SerFramer) (r : Reply) :
    ((s.setSer k u).emit r).setSer k v = (s.setSer k v).emit r := by
  simp [State.setSer, State.emit]

theorem runAll_cons {i : Instr} {s t : State} (h : exec i s = .next t) (is : List Instr) :
    runAll (i :: is) s = (runAll is t).map fun out => (out.1, t.reply :: out.2) := by
  simp only [runAll, h]
  cases runAll is t <;> rfl

/-- SER_FEED takes the framer it names through the bytes, and shows the last reply. -/
theorem runAll_serFeed {s : State} {k : Byte} {u : SerFramer} (hu : s.serAt k = some u) (bs : Bytes) :
    runAll (serFeed k bs) s =
      some ((s.setSer k (serRun bs u).1).emit ((serRun bs u).2.getLastD s.reply), (serRun bs u).2) := by
  induction bs generalizing s u with
  | nil =>
    rw [serRun_nil, State.setSer_self hu]
    rfl
  | cons b bs ih =>
    rcases hb : serByte b u with ⟨u', r⟩
    have hafter : ((s.setSer k u').emit (.result r)).serAt k = some u' := s.setSer_serAt_same k u' u hu
    have hfeed : serFeed k (b :: bs) = .serByte k b :: serFeed k bs := rfl
    rw [hfeed, runAll_cons (exec_serByte hu hb), ih hafter, State.setSer_emit_setSer, State.emit_emit, State.emit_reply,
      serRun_cons hb, List.getLastD_cons]
    rfl

/-! ## A frame (R211, R365) -/

section Frame

variable {u : SerFramer}

/-- R206: bytes without a start code leave no trace in IDLE. -/
theorem serRun_noise (hs : u.state = .idle) {noise : Bytes} (h : startCode ∉ noise) :
    serRun noise u = (u, List.replicate noise.length (.result .none)) := by
  induction noise with
  | nil => rfl
  | cons b noise ih =>
    obtain ⟨hb, hnoise⟩ := List.ne_and_not_mem_of_not_mem_cons h
    rw [serRun_cons (serByte_idle hs (Ne.symm hb)), ih hnoise]
    rfl

/-- R207, R208: bytes without a delimiter, as many as the buffer can still hold, are appended to it. -/
theorem serRun_body (hs : u.state = .decoding) {body : Bytes} (hstart : startCode ∉ body) (hend : endCode ∉ body)
    (hroom : ∀ n, u.cap = some n → u.buf.length + body.length ≤ n) :
    serRun body u = ({ u with buf := u.buf ++ body }, List.replicate body.length (.result .none)) := by
  induction body generalizing u with
  | nil => rw [List.append_nil]; rfl
  | cons b body ih =>
    obtain ⟨hbstart, hstart⟩ := List.ne_and_not_mem_of_not_mem_cons hstart
    obtain ⟨hbend, hend⟩ := List.ne_and_not_mem_of_not_mem_cons hend
    have hnotFull : u.cap ≠ some u.buf.length := fun hcap => by simpa using hroom _ hcap
    have hrest : serRun body { u with buf := u.buf ++ [b] } =
        ({ u with buf := u.buf ++ [b] ++ body }, List.replicate body.length (.result .none)) :=
      ih hs hstart hend fun n hn => by simpa [Nat.add_assoc, Nat.add_comm 1] using hroom n hn
    rw [serRun_cons (serByte_append hs (Ne.symm hbstart) (Ne.symm hbend) hnotFull), hrest, List.append_assoc]
    rfl

/-- R211 (c): a frame whose body the buffer can hold, from any state of the framer. -/
theorem serRun_frame {body : Bytes} (hstart : startCode ∉ body) (hend : endCode ∉ body)
    (hroom : ∀ n, u.cap = some n → body.length ≤ n) :
    serRun (startCode :: body ++ [endCode]) u = ({ u with state := .idle, buf := [] },
      List.replicate (body.length + 1) (.result .none) ++ [.result (serBodyDecode body u.dir)]) := by
  have hbody : serRun body { u with state := .decoding, buf := [] } =
      ({ u with state := .decoding, buf := body }, List.replicate body.length (.result .none)) :=
    serRun_body rfl hstart hend fun n hn => by simpa using hroom n hn
  have hdecode : serFrameDecode (startCode :: body ++ [endCode]) u.dir = serBodyDecode body u.dir :=
    serFrameDecode_frame body u.dir
  rw [List.cons_append, serRun_cons (serByte_start u), serRun_append hbody, serRun_cons (serByte_end rfl), serRun_nil,
    hdecode]
  rfl

/-- R211 (d): the same after bytes without a start code in IDLE. -/
theorem serRun_noise_frame {noise body : Bytes} (hnoise : noise = [] ∨ u.state = .idle ∧ startCode ∉ noise)
    (hstart : startCode ∉ body) (hend : endCode ∉ body) (hroom : ∀ n, u.cap = some n → body.length ≤ n) :
    serRun (noise ++ (startCode :: body ++ [endCode])) u = ({ u with state := .idle, buf := [] },
      List.replicate (noise.length + body.length + 1) (.result .none) ++ [.result (serBodyDecode body u.dir)]) := by
  have hbefore : serRun noise u = (u, List.replicate noise.length (.result .none)) := by
    rcases hnoise with rfl | ⟨hs, h⟩
    · rfl
    · exact serRun_noise hs h
  rw [serRun_append hbefore, serRun_frame hstart hend hroom, ← List.append_assoc, List.replicate_append_replicate,
    ← Nat.add_assoc]

end Frame

/-- Settles O41: the body of a frame holds no delimiter, so it is buffered whole, and it decodes as the packet. -/
theorem serialFrameFeed : Obligations.SerialFrameFeed := by
  intro k noise p s u hu hnoise hroom
  obtain ⟨hstart, hend⟩ := notMem_serEscape (frameSeal p)
  refine ⟨decodeByDir u.dir p, ?decoder, ?feed⟩
  case decoder =>
    cases u.dir with
    | cmd => exact answers_cmdDecode p s
    | rsp => exact answers_stsDecode p s
  case feed =>
    have hframe : serFrameEncode p = startCode :: serEscape (frameSeal p) ++ [endCode] := rfl
    rw [hframe, runAll_serFeed hu, serRun_noise_frame hnoise hstart hend hroom, serBodyDecode_frameSeal,
      List.getLastD_concat]

end Sys2Proof.Machine
end

section
/-! Proofs about the I2C framer's cycle (44_i2c_framer.md R240 to R249): what a write and each read answer, told by what
FRAME_OPEN makes of the frame they carry; what any transaction can answer; then the four transactions of a cycle in a
row. -/

namespace Sys2Proof.Machine

open Sys2Proof.Spec

/-! ## One transaction, in each phase (R242 to R245) -/

section Transaction

variable {u : I2cFramer} {data f p more : Bytes} {e : ErrorKind} {l : U16}

/-- R242: a valid frame starts the cycle, whatever the packet decoder says of its payload. -/
theorem i2cTxn_write_ok (h : frameOpen data = .ok p) :
    i2cTxn .write data u =
      some ({ u with phase := .responseStatus, rspLen := none }, cmdResult (cmdDecode p) (.i2c u.phase)) := by
  simp [i2cTxn, i2cWrite, h]

theorem i2cTxn_write_error (h : frameOpen data = .error e) :
    i2cTxn .write data u = some (u, .err e (.i2c u.phase)) := by
  simp [i2cTxn, i2cWrite, h]

theorem i2cTxn_statusRead_empty (hp : u.phase = .command ∨ u.phase = .responseStatus) :
    i2cTxn .read [] u = some (u, .err (.framingError .tooShort) (.i2c u.phase)) := by
  rcases hp with hp | hp <;> simp [i2cTxn, i2cRead, i2cStatusRead, hp]

/-- A read is too short for a frame of `n` bytes, or it is such a frame and surplus bytes. -/
theorem short_or_append (data : Bytes) (n : Nat) :
    data.length < n ∨ ∃ f more, data = f ++ more ∧ f.length = n := by
  rcases Nat.lt_or_ge data.length n with h | h
  · exact .inl h
  · exact .inr ⟨data.take n, data.drop n, (data.take_append_drop n).symm, List.length_take_of_le h⟩

theorem slice_append_of_length {n : Nat} (h : f.length = n) (more : Bytes) : slice (f ++ more) 0 n = f := by
  simp [slice, ← h]

theorem i2cTxn_lengthRead_short (hp : u.phase = .responseLength) (h : data.length < 4) :
    i2cTxn .read data u = some (u, .err (.framingError .tooShort) (.i2c .responseLength)) := by
  simp [i2cTxn, i2cRead, i2cLengthRead, hp, h]

theorem i2cTxn_lengthRead_ok (hp : u.phase = .responseLength) (hlen : f.length = 4) (h : frameOpen f = .ok p) :
    i2cTxn .read (f ++ more) u =
      some ({ u with rspLen := some (le16At p 0), phase := .response }, .len (le16At p 0)) := by
  simp [i2cTxn, i2cRead, i2cLengthRead, hp, hlen, slice_append_of_length, h]

theorem i2cTxn_lengthRead_error (hp : u.phase = .responseLength) (hlen : f.length = 4) (h : frameOpen f = .error e) :
    i2cTxn .read (f ++ more) u = some (u, .err e (.i2c .responseLength)) := by
  simp [i2cTxn, i2cRead, i2cLengthRead, hp, hlen, slice_append_of_length, h]

theorem i2cTxn_responseRead_short (hp : u.phase = .response) (hl : u.rspLen = some l)
    (h : data.length < l.toNat + u.adjust) :
    i2cTxn .read data u = some (u, .err (.framingError .tooShort) (.i2c .response)) := by
  simp [i2cTxn, i2cRead, i2cResponseRead, hp, hl, h]

/-- R245: a valid response ends the cycle, whatever the packet decoder says of its payload. -/
theorem i2cTxn_responseRead_ok (hp : u.phase = .response) (hl : u.rspLen = some l)
    (hlen : f.length = l.toNat + u.adjust) (h : frameOpen f = .ok p) :
    i2cTxn .read (f ++ more) u =
      some ({ u with phase := .command, rspLen := none }, stsResult (stsDecode p) (.i2c .response)) := by
  simp [i2cTxn, i2cRead, i2cResponseRead, hp, hl, ← hlen, slice_append_of_length, h]

theorem i2cTxn_responseRead_error (hp : u.phase = .response) (hl : u.rspLen = some l)
    (hlen : f.length = l.toNat + u.adjust) (h : frameOpen f = .error e) :
    i2cTxn .read (f ++ more) u = some (u, .err e (.i2c .response)) := by
  simp [i2cTxn, i2cRead, i2cResponseRead, hp, hl, ← hlen, slice_append_of_length, h]

end Transaction

/-- I2C_TXN runs as the framer's own transaction; the address plays no part (R249). -/
theorem exec_i2cTxn {s : State} {k : Byte} {u u' : I2cFramer} {rw : Rw} {data : Bytes} {r : Result}
    (hu : s.i2cAt k = some u) (h : i2cTxn rw data u = some (u', r)) (addr : BitVec 7) :
    exec (.i2cTxn k rw addr data) s = .next ((s.setI2c k u').emit (.result r)) :=
  stepI2c_of_some hu h

/-! ## What any transaction can answer (R246, R247) -/

/-- A transaction fails and leaves the framer, reports a status byte or a length, or answers as a packet decoder. -/
theorem i2cTxn_answer {rw : Rw} {data : Bytes} {u u' : I2cFramer} {r : Result} (h : i2cTxn rw data u = some (u', r)) :
    (u' = u ∧ ∃ e, r = .err e (.i2c u.phase)) ∨ (∃ st, r = .poll st) ∨ (∃ l, r = .len l) ∨
      (∃ p, r = cmdResult (cmdDecode p) (.i2c u.phase)) ∨ ∃ p, r = stsResult (stsDecode p) (.i2c u.phase) := by
  have status (hp : u.phase = .command ∨ u.phase = .responseStatus) (h : i2cTxn .read data u = some (u', r)) :
      (u' = u ∧ ∃ e, r = .err e (.i2c u.phase)) ∨ ∃ st, r = .poll st := by
    cases data with
    | nil =>
      cases (i2cTxn_statusRead_empty hp).symm.trans h
      exact .inl ⟨rfl, _, rfl⟩
    | cons st more =>
      cases (i2cTxn_statusRead hp st more).symm.trans h
      exact .inr ⟨_, rfl⟩
  cases rw with
  | write =>
    cases hopen : frameOpen data with
    | error e =>
      cases (i2cTxn_write_error hopen).symm.trans h
      exact .inl ⟨rfl, e, rfl⟩
    | ok p =>
      cases (i2cTxn_write_ok hopen).symm.trans h
      exact .inr (.inr (.inr (.inl ⟨p, rfl⟩)))
  | read =>
    cases hp : u.phase with
    | command => exact (hp ▸ status (.inl hp) h).imp_right .inl
    | responseStatus => exact (hp ▸ status (.inr hp) h).imp_right .inl
    | responseLength =>
      rcases short_or_append data 4 with hshort | ⟨f, more, rfl, hlen⟩
      · cases (i2cTxn_lengthRead_short hp hshort).symm.trans h
        exact .inl ⟨rfl, _, rfl⟩
      · cases hopen : frameOpen f with
        | error e =>
          cases (i2cTxn_lengthRead_error hp hlen hopen).symm.trans h
          exact .inl ⟨rfl, e, rfl⟩
        | ok p =>
          cases (i2cTxn_lengthRead_ok hp hlen hopen).symm.trans h
          exact .inr (.inr (.inl ⟨_, rfl⟩))
    | response =>
      cases hl : u.rspLen with
      | none => simp [i2cTxn, i2cRead, hp, hl] at h
      | some l =>
        rcases short_or_append data (l.toNat + u.adjust) with hshort | ⟨f, more, rfl, hlen⟩
        · cases (i2cTxn_responseRead_short hp hl hshort).symm.trans h
          exact .inl ⟨rfl, _, rfl⟩
        · cases hopen : frameOpen f with
          | error e =>
            cases (i2cTxn_responseRead_error hp hl hlen hopen).symm.trans h
            exact .inl ⟨rfl, e, rfl⟩
          | ok p =>
            cases (i2cTxn_responseRead_ok hp hl hlen hopen).symm.trans h
            exact .inr (.inr (.inr (.inr ⟨p, rfl⟩)))

/-- R123: an error of the packet decoder has a code of its own, which no frame error has. -/
theorem cmdResult_err {p : Bytes} {ph ph' : ErrPhase} {e : ErrorKind} (h : cmdResult (cmdDecode p) ph = .err e ph') :
    ph' = ph ∧ e ≠ .checksumInvalid ∧ e ≠ .framingError .tooShort := by
  rcases cmdDecode_cases p with ⟨-, hd⟩ | ⟨b0, b1, data, -, ⟨c, -, hd⟩ | ⟨-, hd⟩⟩ <;> rw [hd] at h
  · cases h
    simp
  · cases h
  · cases h
    simp

/-- R137, likewise. -/
theorem stsResult_err {p : Bytes} {ph ph' : ErrPhase} {e : ErrorKind} (h : stsResult (stsDecode p) ph = .err e ph') :
    ph' = ph ∧ e ≠ .checksumInvalid ∧ e ≠ .framingError .tooShort := by
  rcases stsDecode_cases p with ⟨-, hd⟩ | ⟨b0, b1, data, -, ⟨c, -, hd⟩ | ⟨-, hd⟩⟩ <;> rw [hd] at h
  · cases h
    simp
  · cases h
  · cases h
    simp

/-- R246, R332: an error carries the phase of arrival, and one of the frame's own errors leaves the framer. -/
theorem i2cTxn_err {rw : Rw} {data : Bytes} {u u' : I2cFramer} {e : ErrorKind} {ph : ErrPhase}
    (h : i2cTxn rw data u = some (u', .err e ph)) :
    ph = .i2c u.phase ∧ (e = .checksumInvalid ∨ e = .framingError .tooShort → u' = u) := by
  rcases i2cTxn_answer h with ⟨rfl, e', hr⟩ | ⟨st, hr⟩ | ⟨l, hr⟩ | ⟨p, hr⟩ | ⟨p, hr⟩
  · cases hr
    exact ⟨rfl, fun _ => rfl⟩
  · cases hr
  · cases hr
  · obtain ⟨hph, hsum, hshort⟩ := cmdResult_err hr.symm
    exact ⟨hph, fun he => (he.elim hsum hshort).elim⟩
  · obtain ⟨hph, hsum, hshort⟩ := stsResult_err hr.symm
    exact ⟨hph, fun he => (he.elim hsum hshort).elim⟩

/-! ## Transactions in a row -/

theorem State.setI2c_self {s : State} {k : Byte} {u : I2cFramer} (h : s.i2cAt k = some u) : s.setI2c k u = s := by
  have hslot : s.i2c[k.toNat]? = some (some u) := Option.join_eq_some_iff.mp h
  obtain ⟨hk, hget⟩ := List.getElem?_eq_some_iff.mp hslot
  rw [State.setI2c, ← hget, List.set_getElem_self hk]

/-- A second write of the framer replaces the first, and the port keeps what was shown in between. -/
theorem State.setI2c_emit_setI2c (s : State) (k : Byte) (u v : I2cFramer) (r : Reply) :
    ((s.setI2c k u).emit r).setI2c k v = (s.setI2c k v).emit r := by
  simp [State.setI2c, State.emit]

/-- From every state whose framer `k` is `u`, the instructions give these replies, leave that framer as `v` and change
nothing else but the port. -/
def I2cRuns (k : Byte) (is : List Instr) (u v : I2cFramer) (rs : List Reply) : Prop :=
  ∀ s : State, s.i2cAt k = some u → runAll is s = some ((s.setI2c k v).emit (rs.getLastD s.reply), rs)

theorem i2cRuns_nil (k : Byte) (u : I2cFramer) : I2cRuns k [] u u [] := by
  intro s hu
  rw [State.setI2c_self hu]
  rfl

/-- One transaction, then the others from where it leaves the framer. -/
theorem i2cRuns_cons {k : Byte} {u u' v : I2cFramer} {rw : Rw} {data : Bytes} {r : Result} {is : List Instr}
    {rs : List Reply} (h : i2cTxn rw data u = some (u', r)) (addr : BitVec 7) (hrest : I2cRuns k is u' v rs) :
    I2cRuns k (.i2cTxn k rw addr data :: is) u v (.result r :: rs) := by
  intro s hu
  have hafter : ((s.setI2c k u').emit (.result r)).i2cAt k = some u' := s.setI2c_i2cAt_same k u' u hu
  rw [runAll_cons (exec_i2cTxn hu h addr), hrest _ hafter, State.setI2c_emit_setI2c, State.emit_emit,
    State.emit_reply, List.getLastD_cons]
  rfl

/-! ## The statements -/

/-- Settles O46: the frame of R245 is opened, or the read or the frame is too short for it. -/
theorem i2cResponseResult : Obligations.I2cResponseResult := by
  intro k addr s u l hu hp hl
  refine ⟨fun p more lo hi hlen => ?frame, fun data h => ?short⟩
  case frame =>
    have hlen : (p ++ [lo, hi]).length = l.toNat + u.adjust := by simpa using hlen
    split
    · next hsum => exact exec_i2cTxn hu (i2cTxn_responseRead_ok hp hl hlen (frameOpen_valid hsum)) addr
    · next hsum => exact exec_i2cTxn hu (i2cTxn_responseRead_error hp hl hlen (frameOpen_checksumInvalid hsum)) addr
  case short =>
    rcases short_or_append data (l.toNat + u.adjust) with hshort | ⟨f, more, rfl, hlen⟩
    · exact exec_i2cTxn hu (i2cTxn_responseRead_short hp hl hshort) addr
    · have hf : f.length < 2 := by
        rw [List.length_append] at h
        omega
      exact exec_i2cTxn hu (i2cTxn_responseRead_error hp hl hlen (frameOpen_short hf)) addr

/-- Settles O47: the one transaction that the instruction runs has the property, and a reset answers with no error. -/
theorem i2cRetryOnFailure : Obligations.I2cRetryOnFailure := by
  intro i k s t u e ph ht hu h hreply
  cases exec_next h with
  | i2c j f v u' r hj hv hf hr hst =>
    obtain rfl : j = k := by
      have hjk : j.toNat = k.toNat := by simpa [hj] using ht
      exact BitVec.eq_of_toNat_eq hjk
    obtain rfl : v = u := Option.some.inj (hv.symm.trans hu)
    subst hst
    obtain rfl : r = .err e ph := Reply.result.inj hreply
    rcases hf with rfl | ⟨rw, data, rfl⟩
    · cases hr
    · obtain ⟨hph, hkeep⟩ := i2cTxn_err hr
      refine ⟨hph, fun he => ?_⟩
      rw [State.emit_i2c, hkeep he, State.setI2c_self hu]
  | pure r hj | ser j f v hj | spi j f v hj | sess j f v hj => simp [hj] at ht

/-- Settles O49: the four transactions in a row, each from the framer that the one before left. -/
theorem i2cFullCycle : Obligations.I2cFullCycle := by
  intro k addr s u p q st l hu hst hl
  have hcommand := i2cTxn_write_ok (u := u) (frameOpen_frameSeal p)
  have hpoll : i2cTxn .read [st] { u with phase := .responseStatus, rspLen := none } =
      some ({ u with phase := .responseLength, rspLen := none }, .poll ⟨st⟩) := by
    rw [i2cTxn_statusRead (.inr rfl), if_pos ⟨rfl, hst⟩]
  have hlength : i2cTxn .read (frameSeal (le16Bytes l)) { u with phase := .responseLength, rspLen := none } =
      some ({ u with phase := .response, rspLen := some l }, .len l) := by
    have hread := i2cTxn_lengthRead_ok (u := { u with phase := .responseLength, rspLen := none }) (more := []) rfl
      rfl (frameOpen_frameSeal (le16Bytes l))
    have hfield : le16At (le16Bytes l) 0 = l := le16_bytes l
    rwa [List.append_nil, hfield] at hread
  have hresponse : i2cTxn .read (frameSeal q) { u with phase := .response, rspLen := some l } =
      some ({ u with phase := .command, rspLen := none }, stsResult (stsDecode q) (.i2c .response)) := by
    have hlen : (frameSeal q).length = l.toNat + u.adjust := by simp [frameSeal, hl]
    have hread := i2cTxn_responseRead_ok (u := { u with phase := .response, rspLen := some l }) (more := []) rfl rfl
      hlen (frameOpen_frameSeal q)
    rwa [List.append_nil] at hread
  exact i2cRuns_cons hcommand addr (i2cRuns_cons hpoll addr (i2cRuns_cons hlength addr
    (i2cRuns_cons hresponse addr (i2cRuns_nil k _)))) s hu

/-- Settles O42: the frame opens to the packet, fails the comparison, or is too short for it. -/
theorem i2cWriteResult : Obligations.I2cWriteResult :=
  fun _ addr _ _ hu => ⟨fun p => exec_i2cTxn hu (i2cTxn_write_ok (frameOpen_frameSeal p)) addr,
    fun _ _ _ h => exec_i2cTxn hu (i2cTxn_write_error (frameOpen_checksumInvalid h)) addr,
    fun _ h => exec_i2cTxn hu (i2cTxn_write_error (frameOpen_short h)) addr⟩

/-- Settles O43: a status read, of a first byte and of none. -/
theorem i2cPollResult : Obligations.I2cPollResult :=
  fun _ addr _ _ hu hp => ⟨fun st more => exec_i2cTxn hu (i2cTxn_statusRead hp st more) addr,
    exec_i2cTxn hu (i2cTxn_statusRead_empty hp) addr⟩

/-- Settles O45: the first four bytes are the frame of the two length bytes, or there are fewer. -/
theorem i2cLengthResult : Obligations.I2cLengthResult := by
  intro k addr s u hu hp
  refine ⟨fun l0 l1 c0 c1 more => ?frame, fun data h => exec_i2cTxn hu (i2cTxn_lengthRead_short hp h) addr⟩
  have hlen : ([l0, l1] ++ [c0, c1]).length = 4 := rfl
  split
  · next hsum => exact exec_i2cTxn hu (i2cTxn_lengthRead_ok hp hlen (frameOpen_valid hsum)) addr
  · next hsum => exact exec_i2cTxn hu (i2cTxn_lengthRead_error hp hlen (frameOpen_checksumInvalid hsum)) addr

end Sys2Proof.Machine
end

section
/-! Proofs about the SPI framer (45_spi_framer.md R281 to R286): which operation a transaction runs, by the first byte of
mosi and the tag in miso; then what each operation answers, told by what FRAME_OPEN makes of the frame it carries. -/

namespace Sys2Proof.Machine

open Sys2Proof.Spec

section Transaction

variable {u : SpiFramer} {mosi rest miso body f p more : Bytes} {e : ErrorKind}

/-! ## The operation of a transaction (R281, R283, R286) -/

theorem spiTxn_write (f miso : Bytes) (u : SpiFramer) : spiTxn (0x11 :: f) miso u = spiWrite f u := by
  have hwrite : (0x11 : Byte) = spiWriteCode := rfl
  rw [spiTxn, if_pos hwrite]

theorem spiTxn_read (rest miso : Bytes) (u : SpiFramer) : spiTxn (0x55 :: rest) miso u = spiQuery miso u := by
  have hne : (0x55 : Byte) ≠ spiWriteCode := by decide
  have hread : (0x55 : Byte) = spiReadCode := rfl
  rw [spiTxn, if_neg hne, if_pos hread]

/-- R286: an empty mosi has no expected first byte either. -/
theorem spiTxn_unexpectedPrefix (h : ∀ b rest, mosi = b :: rest → b ≠ 0x11 ∧ b ≠ 0x55) (miso : Bytes) (u : SpiFramer) :
    spiTxn mosi miso u = (u, framingErr .unexpectedPrefix) := by
  cases mosi with
  | nil => rfl
  | cons b rest =>
    obtain ⟨hwrite, hread⟩ := h b rest rfl
    exact (if_neg hwrite).trans (if_neg hread)

theorem spiQuery_notReady (h : miso.length < 4 ∨ (slice miso 1 4 ≠ tagLen ∧ slice miso 1 4 ≠ tagRsp)) (u : SpiFramer) :
    spiQuery miso u = (u, .notReady) := by
  unfold spiQuery
  rcases h with hshort | ⟨hlen, hrsp⟩
  · rw [if_pos hshort]
  · rw [if_neg hlen, if_neg hrsp, ite_self]

theorem spiQuery_len (dummy : Byte) (body : Bytes) (u : SpiFramer) :
    spiQuery ([dummy, 0x4C, 0x45, 0x4E] ++ body) u = spiLenReply ([dummy, 0x4C, 0x45, 0x4E] ++ body) u := by
  simp [spiQuery, slice, tagLen]

theorem spiQuery_rsp (dummy : Byte) (body : Bytes) (u : SpiFramer) :
    spiQuery ([dummy, 0x52, 0x53, 0x50] ++ body) u = spiRspReply body u := by
  simp [spiQuery, slice, tagLen, tagRsp]

/-! ## A command (R282) -/

/-- R282: a valid frame abandons a pending response, whatever the packet decoder says of its payload. -/
theorem spiWrite_ok (h : frameOpen f = .ok p) :
    spiWrite f u = ({ u with rspLen := none }, cmdResult (cmdDecode p) .spiWrite) := by
  simp [spiWrite, h]

theorem spiWrite_error (h : frameOpen f = .error e) : spiWrite f u = (u, .err e .spiWrite) := by
  simp [spiWrite, h]

/-! ## A length reply (R284) -/

/-- The frame of a length reply: the four bytes after the dummy byte and the tag. -/
theorem slice_four_eight (b0 b1 b2 b3 : Byte) (hlen : f.length = 4) (more : Bytes) :
    slice ([b0, b1, b2, b3] ++ (f ++ more)) 4 8 = f :=
  slice_append_of_length hlen more

theorem spiLenReply_short (b0 b1 b2 b3 : Byte) (h : body.length < 4) :
    spiLenReply ([b0, b1, b2, b3] ++ body) u = (u, .err (.framingError .tooShort) .spiRead) := by
  have hshort : ([b0, b1, b2, b3] ++ body).length < 8 := by
    simp only [List.length_append, List.length_cons, List.length_nil]
    omega
  rw [spiLenReply, if_pos hshort]

theorem spiLenReply_ok (b0 b1 b2 b3 : Byte) (hlen : f.length = 4) (h : frameOpen f = .ok p) :
    spiLenReply ([b0, b1, b2, b3] ++ (f ++ more)) u = ({ u with rspLen := some (le16At p 0) }, .len (le16At p 0)) := by
  rw [spiLenReply, slice_four_eight b0 b1 b2 b3 hlen, h]
  simp [hlen]

theorem spiLenReply_error (b0 b1 b2 b3 : Byte) (hlen : f.length = 4) (h : frameOpen f = .error e) :
    spiLenReply ([b0, b1, b2, b3] ++ (f ++ more)) u = (u, .err e .spiRead) := by
  rw [spiLenReply, slice_four_eight b0 b1 b2 b3 hlen, h]
  simp [hlen]

/-! ## A response reply (R285) -/

/-- R285: a valid response is the end of the cycle, whatever the packet decoder says of its payload. -/
theorem spiResponse_ok (h : frameOpen f = .ok p) :
    spiResponse f u = ({ u with rspLen := none }, stsResult (stsDecode p) .spiRead) := by
  simp [spiResponse, h]

theorem spiResponse_error (h : frameOpen f = .error e) : spiResponse f u = (u, .err e .spiRead) := by
  simp [spiResponse, h]

/-- The frame of a response reply: `L + SPI_RSP_LEN_ADJUST` bytes if a length `L` is stored, else the whole body. -/
theorem spiRspReply_append (hlen : ∀ l, u.rspLen = some l → f.length = l.toNat + u.adjust)
    (hall : u.rspLen = none → more = []) : spiRspReply (f ++ more) u = spiResponse f u := by
  cases hl : u.rspLen with
  | none =>
    rw [hall hl, List.append_nil]
    simp [spiRspReply, hl]
  | some l => simp [spiRspReply, hl, ← hlen l hl, slice_append_of_length]

theorem spiRspReply_missingBytes {l : U16} (hl : u.rspLen = some l) (h : body.length < l.toNat + u.adjust) :
    spiRspReply body u = (u, .err (.framingError .tooShort) .spiRead) := by
  simp [spiRspReply, hl, h]

/-- R285: too short for the stored length, or with too few bytes for a frame's checksum. -/
theorem spiRspReply_short
    (hlen : ∀ l, u.rspLen = some l → body.length < l.toNat + u.adjust ∨ l.toNat + u.adjust < 2)
    (hall : u.rspLen = none → body.length < 2) :
    spiRspReply body u = (u, .err (.framingError .tooShort) .spiRead) := by
  cases hl : u.rspLen with
  | none =>
    have hwhole : spiRspReply body u = spiResponse body u := by simp [spiRspReply, hl]
    exact hwhole.trans (spiResponse_error (frameOpen_short (hall hl)))
  | some l =>
    rcases short_or_append body (l.toNat + u.adjust) with hmissing | ⟨f, more, rfl, hf⟩
    · exact spiRspReply_missingBytes hl hmissing
    · have hframe : spiRspReply (f ++ more) u = spiResponse f u :=
        spiRspReply_append (fun l' hl' => by rw [hf, Option.some.inj (hl.symm.trans hl')]) (by simp [hl])
      have hshort : f.length < 2 := by
        have hbytes := hlen l hl
        rw [List.length_append] at hbytes
        omega
      exact hframe.trans (spiResponse_error (frameOpen_short hshort))

end Transaction

/-! ## SPI_TXN (R281) -/

section Exec

variable {s : State} {k : Byte} {u u' : SpiFramer} {mosi f miso body : Bytes} {r : Result}

/-- SPI_TXN runs as the framer's own transaction. -/
theorem exec_spiTxn (hu : s.spiAt k = some u) (h : spiTxn mosi miso u = (u', r)) :
    exec (.spiTxn k mosi miso) s = .next ((s.setSpi k u').emit (.result r)) := by
  have hstep : exec (.spiTxn k mosi miso) s = _ := stepSpi_of_some hu
  rwa [h] at hstep

theorem exec_spiTxn_write (hu : s.spiAt k = some u) (h : spiWrite f u = (u', r)) (miso : Bytes) :
    exec (.spiTxn k (0x11 :: f) miso) s = .next ((s.setSpi k u').emit (.result r)) :=
  exec_spiTxn hu ((spiTxn_write f miso u).trans h)

theorem exec_spiTxn_read (hu : s.spiAt k = some u) (h : spiQuery miso u = (u', r)) (rest : Bytes) :
    exec (.spiTxn k (0x55 :: rest) miso) s = .next ((s.setSpi k u').emit (.result r)) :=
  exec_spiTxn hu ((spiTxn_read rest miso u).trans h)

theorem exec_spiTxn_len {dummy : Byte} (hu : s.spiAt k = some u)
    (h : spiLenReply ([dummy, 0x4C, 0x45, 0x4E] ++ body) u = (u', r)) (rest : Bytes) :
    exec (.spiTxn k (0x55 :: rest) ([dummy, 0x4C, 0x45, 0x4E] ++ body)) s =
      .next ((s.setSpi k u').emit (.result r)) :=
  exec_spiTxn_read hu ((spiQuery_len dummy body u).trans h) rest

theorem exec_spiTxn_rsp (hu : s.spiAt k = some u) (h : spiRspReply body u = (u', r)) (rest : Bytes) (dummy : Byte) :
    exec (.spiTxn k (0x55 :: rest) ([dummy, 0x52, 0x53, 0x50] ++ body)) s =
      .next ((s.setSpi k u').emit (.result r)) :=
  exec_spiTxn_read hu ((spiQuery_rsp dummy body u).trans h) rest

end Exec

/-! ## The statements -/

/-- Settles O53: the frame of R285 is opened, or the body or the frame is too short for it. -/
theorem spiRspResult : Obligations.SpiRspResult := by
  intro k dummy rest body s u hu
  refine ⟨fun p more lo hi hbody hlen hall => ?frame,
    fun hlen hall => exec_spiTxn_rsp hu (spiRspReply_short hlen hall) rest dummy⟩
  subst hbody
  have hlen : ∀ l, u.rspLen = some l → (p ++ [lo, hi]).length = l.toNat + u.adjust := by simpa using hlen
  have hframe := spiRspReply_append hlen hall
  split
  · next hsum => exact exec_spiTxn_rsp hu (hframe.trans (spiResponse_ok (frameOpen_valid hsum))) rest dummy
  · next hsum => exact exec_spiTxn_rsp hu (hframe.trans (spiResponse_error (frameOpen_checksumInvalid hsum))) rest dummy

/-- Settles O50: the frame opens to the packet, fails the comparison, or is too short for it. -/
theorem spiWriteResult : Obligations.SpiWriteResult :=
  fun _ miso _ _ hu => ⟨fun p => exec_spiTxn_write hu (spiWrite_ok (frameOpen_frameSeal p)) miso,
    fun _ _ _ h => exec_spiTxn_write hu (spiWrite_error (frameOpen_checksumInvalid h)) miso,
    fun _ h => exec_spiTxn_write hu (spiWrite_error (frameOpen_short h)) miso⟩

/-- Settles O51: the query finds no tag. -/
theorem spiNotReadyResult : Obligations.SpiNotReadyResult :=
  fun _ rest _ _ u hu h => exec_spiTxn_read hu (spiQuery_notReady h u) rest

/-- Settles O52: the four bytes after the tag are the frame of the two length bytes, or there are fewer. -/
theorem spiLenResult : Obligations.SpiLenResult := by
  intro k dummy rest s u hu
  refine ⟨fun l0 l1 c0 c1 more => ?frame,
    fun body h => exec_spiTxn_len hu (spiLenReply_short dummy 0x4C 0x45 0x4E h) rest⟩
  have hlen : ([l0, l1] ++ [c0, c1]).length = 4 := rfl
  split
  · next hsum => exact exec_spiTxn_len hu (spiLenReply_ok dummy 0x4C 0x45 0x4E hlen (frameOpen_valid hsum)) rest
  · next hsum =>
    exact exec_spiTxn_len hu (spiLenReply_error dummy 0x4C 0x45 0x4E hlen (frameOpen_checksumInvalid hsum)) rest

/-- Settles O54: a transaction always answers, and without an expected first byte it answers with the error alone. -/
theorem spiTxnCompletes : Obligations.SpiTxnCompletes :=
  fun _ _ miso _ u hu => ⟨fun _ => rfl, ⟨_, _, exec_spiTxn hu rfl⟩,
    fun h => exec_spiTxn hu (spiTxn_unexpectedPrefix h miso u)⟩

end Sys2Proof.Machine
end

section
/-! Proofs about session pairing, framer reset and the discard of an agent (46_session.md R310 to R314, R362): which step of
its agent a request runs, what a session unit makes of each kind of result, and what a discard leaves. -/

namespace Sys2Proof.Machine

open Sys2Proof.Spec

/-! ## SESSION_RESULT (R310) -/

section SessionResult

variable {s : State} {k p5 : Byte} {u u' : SessionUnit} {q : StatusPacket} {r : Result} {reply : Reply}

/-- SESSION_RESULT runs as the session unit's own step. -/
theorem exec_sessionResult (hu : s.sessAt k = some u) (h : sessionStep s.itdTypeCode r u = (u', reply)) :
    exec (.sessionResult k r) s = .next ((s.setSess k u').emit reply) := by
  have hstep : exec (.sessionResult k r) s = _ := stepSess_of_some hu
  rwa [h] at hstep

theorem sessionStep_cmd (p5 : Byte) (p : CommandPacket) (u : SessionUnit) :
    sessionStep p5 (.cmd p) u = (⟨some p.cmd⟩, .pair (.cmd p) none) := rfl

/-- R310: a SUCCESS that answers GET_CLIENT_INFO carries a client-info stream. -/
theorem sessionStep_sts_decoded (hcmd : u.lastCmd = some .getClientInfo) (hq : q.status = .success) :
    sessionStep p5 (.sts q) u = (⟨none⟩, .pair (.sts q) (some (ciResult (ciDecode p5 q.data)))) := by
  simp [sessionStep, sessionInfo, hcmd, hq]

theorem sessionStep_sts_plain (h : u.lastCmd ≠ some .getClientInfo ∨ q.status ≠ .success) :
    sessionStep p5 (.sts q) u = (⟨none⟩, .pair (.sts q) none) := by
  simp [sessionStep, sessionInfo, not_and_or.mpr h]

/-- R310: what is no packet passes through. -/
theorem sessionStep_noPacket (hcmd : ∀ p, r ≠ .cmd p) (hsts : ∀ q, r ≠ .sts q) :
    sessionStep p5 r u = (u, .pair r none) := by
  cases r with
  | cmd p => exact absurd rfl (hcmd p)
  | sts q => exact absurd rfl (hsts q)
  | _ => rfl

end SessionResult

/-- Settles O56: the unit's step, by the kind of the result, and for a Status packet by what the unit remembers. -/
theorem sessionResultRule : Obligations.SessionResultRule :=
  fun _ s u hu => ⟨fun _ _ => rfl, fun p => exec_sessionResult hu (sessionStep_cmd _ p u),
    fun q hcmd hq => ⟨_, answers_ciDecode q.data s, exec_sessionResult hu (sessionStep_sts_decoded hcmd hq)⟩,
    fun _ h => exec_sessionResult hu (sessionStep_sts_plain h),
    fun _ hcmd hsts => exec_sessionResult hu (sessionStep_noPacket hcmd hsts)⟩

/-! ## FRAMER_RESET (R314) -/

section FramerReset

variable (k : Byte) (s : State)

theorem exec_framerReset_ser : exec (.framerReset UnitClass.ser.code k) s = stepSer s k resetSer := by
  simp [exec, execFramerReset]

theorem exec_framerReset_i2c : exec (.framerReset UnitClass.i2c.code k) s = stepI2c s k resetI2c := by
  simp [exec, execFramerReset]

theorem exec_framerReset_spi : exec (.framerReset UnitClass.spi.code k) s = stepSpi s k resetSpi := by
  simp [exec, execFramerReset]

theorem exec_framerReset_sess : exec (.framerReset UnitClass.sess.code k) s = stepSess s k resetSess := by
  simp [exec, execFramerReset]

end FramerReset

/-- Settles O57: the class byte (R71) selects the class's own reset, which runs on the agent that is there. -/
theorem framerResetResult : Obligations.FramerResetResult :=
  ⟨fun _ _ _ => rfl, fun k s _ hu => (exec_framerReset_ser k s).trans (stepSer_of_some hu),
    fun k s _ hu => (exec_framerReset_i2c k s).trans (stepI2c_of_some hu rfl),
    fun k s _ hu => (exec_framerReset_spi k s).trans (stepSpi_of_some hu),
    fun k s _ hu => (exec_framerReset_sess k s).trans (stepSess_of_some hu)⟩

/-! ## The discard of an agent (R313, R362) -/

section Discard

variable {s t : State} {c : UnitClass} {k : Nat}

theorem discardAgent_of_missing (h : hasAgent s c k = false) : discardAgent s c k = .refused (.noInstance c k) := by
  simp [discardAgent, h]

theorem discardAgent_of_present (h : hasAgent s c k = true) : ∃ t, discardAgent s c k = .next t := by
  cases c <;> exact ⟨_, if_pos h⟩

/-- What a discard leaves: the slot it names is empty, and every other part of the state is as it was. -/
structure Discarded (c : UnitClass) (k : Nat) (s t : State) : Prop where
  gone : hasAgent t c k = false
  pending : t.pending = s.pending
  itdTypeCode : t.itdTypeCode = s.itdTypeCode
  reply : t.reply = s.reply
  ser : ∀ j, c ≠ .ser ∨ j ≠ k → t.ser[j]? = s.ser[j]?
  i2c : ∀ j, c ≠ .i2c ∨ j ≠ k → t.i2c[j]? = s.i2c[j]?
  spi : ∀ j, c ≠ .spi ∨ j ≠ k → t.spi[j]? = s.spi[j]?
  sess : ∀ j, c ≠ .sess ∨ j ≠ k → t.sess[j]? = s.sess[j]?

/-- In the class that was named, only the slot that was named is written. -/
theorem getElem?_set_of_otherSlot {α : Type} {l : List α} {a : α} {d : UnitClass} (hcd : c = d) (j : Nat)
    (h : c ≠ d ∨ j ≠ k) : (l.set k a)[j]? = l[j]? :=
  List.getElem?_set_ne (h.neg_resolve_left hcd).symm

theorem discarded_of_discardAgent (h : discardAgent s c k = .next t) : Discarded c k s t := by
  obtain ⟨-, hclass⟩ := discardAgent_next h
  rcases hclass with ⟨rfl, rfl⟩ | ⟨rfl, rfl⟩ | ⟨rfl, rfl⟩ | ⟨rfl, rfl⟩
  · exact ⟨by simp [hasAgent, join_set_none], rfl, rfl, rfl, getElem?_set_of_otherSlot rfl, fun _ _ => rfl,
      fun _ _ => rfl, fun _ _ => rfl⟩
  · exact ⟨by simp [hasAgent, join_set_none], rfl, rfl, rfl, fun _ _ => rfl, getElem?_set_of_otherSlot rfl,
      fun _ _ => rfl, fun _ _ => rfl⟩
  · exact ⟨by simp [hasAgent, join_set_none], rfl, rfl, rfl, fun _ _ => rfl, fun _ _ => rfl,
      getElem?_set_of_otherSlot rfl, fun _ _ => rfl⟩
  · exact ⟨by simp [hasAgent, join_set_none], rfl, rfl, rfl, fun _ _ => rfl, fun _ _ => rfl, fun _ _ => rfl,
      getElem?_set_of_otherSlot rfl⟩

end Discard

/-- Settles O60: the step is the discard in the state without that action, of an agent that is there or is not. -/
theorem stepDiscardsAgent : Obligations.StepDiscardsAgent := by
  intro s rest c k hp
  rw [step_of_discard hp]
  have htaken : hasAgent (s.withPending rest) c k = hasAgent s c k := by cases c <;> rfl
  refine ⟨fun hmissing => discardAgent_of_missing (htaken.trans hmissing), fun hpresent => ?_⟩
  obtain ⟨t, ht⟩ := discardAgent_of_present (htaken.trans hpresent)
  obtain ⟨hgone, hpending, hp5, hreply, hser, hi2c, hspi, hsess⟩ := discarded_of_discardAgent ht
  exact ⟨t, ht, hgone, hpending, hp5, hreply, fun j => ⟨hser j, hi2c j, hspi j, hsess j⟩⟩

end Sys2Proof.Machine
end

section
/-! Proofs about the numbers of the errors (60_exceptions.md R330, R331). -/

namespace Sys2Proof.Machine

open Sys2Proof.Spec

/-- R330, R331: an error is read back from its two numbers, so they tell it apart from every other. -/
theorem errorKind_eq_of_codes {e f : ErrorKind} (hcode : e.code = f.code) (hsub : e.sub = f.sub) : e = f := by
  have hread : some e = some f :=
    calc some e = ErrorKind.ofCodes e.code e.sub := (ErrorKind.ofCodes_codes e).symm
      _ = ErrorKind.ofCodes f.code f.sub := by rw [hcode, hsub]
      _ = some f := ErrorKind.ofCodes_codes f
  exact Option.some.inj hread

/-- Settles O59: the numbers can be read back, and the model's list of errors is the two tables row by row. -/
theorem errorNumbers : Obligations.ErrorNumbers :=
  ⟨fun _ _ => errorKind_eq_of_codes, rfl, rfl⟩

end Sys2Proof.Machine
end
